-- ==== Sys2Proof/Word.lean ====
section
/-!
DEFINITION. The word types of the spec (00_scope.md R8, R11): every value is an unsigned integer of a stated width.
-/

namespace Sys2Proof

/-- A byte of the buffer (R10). -/
abbrev Byte := BitVec 8

/-- The width of the Mix32 accumulator (R46). -/
abbrev W32 := BitVec 32

/-- The width of every host-visible register (R31). -/
abbrev W64 := BitVec 64

/-- A 128-bit value (R11); byte 0 is the least significant. -/
abbrev V128 := BitVec 128

/-- A byte address of the buffer space, `AW = 64` (R6, R80). -/
abbrev Addr := BitVec 64

end Sys2Proof
end

