-- ==== Sys2Proof/Syntax.lean ====
section
/-!
DEFINITION. The commands (30_encoding.md R111) and the fields of the command word (R110).
-/

namespace Sys2Proof

/-- The six commands, one constructor per row of spec/opcode_table.json. A command word has no operand fields: the
operands are the registers `DATA`, `LEN`, `SEED` (R110, R113). -/
inductive Instr where
  /-- 32-bit hash of a buffer (R140). -/
  | mix32
  /-- 64-bit hash of a buffer (R160). -/
  | mix64a
  /-- FastHash64 of a buffer (R180). -/
  | fh64
  /-- The Mix32 finalizer alone (R252). -/
  | fin32
  /-- The Mix64A finalizer alone (R253). -/
  | fin64
  /-- The FastHash64 final hash alone (R254). -/
  | finfh
  deriving DecidableEq, Repr

/-- The fields of a 64-bit command word, format `CMD` (R110). -/
structure CommandFields where
  /-- `w[1:0]`, algorithm select. -/
  alg : BitVec 2
  /-- `w[2]`, reserved, must be 0. -/
  rsv2 : BitVec 1
  /-- `w[3]`, finalize-only. -/
  fo : BitVec 1
  /-- `w[63:4]`, reserved, must be 0. -/
  rsvHi : BitVec 60
  deriving DecidableEq, Repr

end Sys2Proof
end

