-- ==== Sys2Proof/WellFormed.lean ====
section
/-!
DEFINITION. Which fields name a command (30_encoding.md R110, R112, R114), and the fields of each command (R111).
-/

namespace Sys2Proof

/-- The reserved bits 63:4 are 0. -/
def CommandFields.highClear (f : CommandFields) : Bool := f.rsvHi == 0

/-- The reserved bit 2 is 0. -/
def CommandFields.bit2Clear (f : CommandFields) : Bool := f.rsv2 == 0

/-- `ALG` selects an algorithm: `00` is reserved. -/
def CommandFields.algNamed (f : CommandFields) : Bool := f.alg != 0

/-- The fields of a legal command word (R112). -/
def CommandFields.wellFormed (f : CommandFields) : Bool := f.highClear && f.bit2Clear && f.algNamed

/-- The fields of each command's word (R111; spec/opcode_table.json, `fixed_fields`). -/
def Instr.fields : Instr → CommandFields
  | .mix32 => ⟨1, 0, 0, 0⟩
  | .mix64a => ⟨2, 0, 0, 0⟩
  | .fh64 => ⟨3, 0, 0, 0⟩
  | .fin32 => ⟨1, 0, 1, 0⟩
  | .fin64 => ⟨2, 0, 1, 0⟩
  | .finfh => ⟨3, 0, 1, 0⟩

/-- A command is well-formed when its fields are: a command has no operand that could be out of range (R113). -/
def Instr.wellFormed (i : Instr) : Bool := i.fields.wellFormed

end Sys2Proof
end

