-- ==== Sys2Proof/Decode.lean ====
section
/-!
DEFINITION. Decoding a command word (30_encoding.md R110 to R112, R114) and encoding a command (R111).
-/

namespace Sys2Proof

/-- Why a word names no command (R112, R114). All three are reported to the host alike, as `IllegalCommand`. -/
inductive DecodeError where
  /-- One of the bits 63:4 is set. -/
  | reservedHighBits
  /-- Bit 2 is set. -/
  | reservedBit2
  /-- `ALG = 00`. -/
  | noAlgorithm
  deriving DecidableEq, Repr

/-- The fields of a word (R110). -/
def fieldsOf (w : W64) : CommandFields :=
  { alg := w.extractLsb' 0 2, rsv2 := w.extractLsb' 2 1, fo := w.extractLsb' 3 1, rsvHi := w.extractLsb' 4 60 }

/-- The word with the given fields (R110). -/
def wordOf (f : CommandFields) : W64 := f.rsvHi ++ f.fo ++ f.rsv2 ++ f.alg

/-- The command that `FO` and `ALG` select; none for the reserved `ALG = 00` (R110, R111). -/
def select (fo : BitVec 1) (alg : BitVec 2) : Option Instr :=
  if fo = 0 then
    if alg = 1 then some .mix32 else if alg = 2 then some .mix64a else if alg = 3 then some .fh64 else none
  else
    if alg = 1 then some .fin32 else if alg = 2 then some .fin64 else if alg = 3 then some .finfh else none

/-- Decoding, total on every 64-bit word (R112, R114, R115). -/
def decode (w : W64) : Except DecodeError Instr :=
  let f := fieldsOf w
  if f.highClear = false then .error .reservedHighBits
  else if f.bit2Clear = false then .error .reservedBit2
  else match select f.fo f.alg with
    | some i => .ok i
    | none => .error .noAlgorithm

/-- The command word of each command (the `word` column of R111). -/
def encode : Instr → W64
  | .mix32 => 0x0000000000000001
  | .mix64a => 0x0000000000000002
  | .fh64 => 0x0000000000000003
  | .fin32 => 0x0000000000000009
  | .fin64 => 0x000000000000000A
  | .finfh => 0x000000000000000B

/-- The command the decoder reads from a table word of `nbits` bits; the bits above are 0. -/
def decodeTableWord (nbits w : Nat) : Option Instr :=
  match decode (BitVec.ofNat 64 (w % 2 ^ nbits)) with
  | .ok i => some i
  | .error _ => none

end Sys2Proof
end

