-- ==== Sys2Proof/Config.lean ====
section
/-!
DEFINITION. What an implementation fixes (00_scope.md R6, 93_implementation_defined.md U12) and the free values
(U3, U4). The opaque constants have no body: nothing is known of them but their types.
-/

namespace Sys2Proof

/-- The direction of `rotate`, the parameter `ROT_DIR` (R6, R244). -/
inductive RotDir where
  | right
  | left
  deriving DecidableEq, Repr

/-- What stands for a function that R6 leaves OPEN: the spec's default, or a function of the platform of which only the
contract of R209 is known. Log entry 14. -/
inductive Choice where
  | specDefault
  | platform
  deriving DecidableEq, Repr

/-- The OPEN parameters of R6. Nothing writes them (R54). Log entries 13, 14, 15. -/
structure Params where
  /-- The prime `P0`, used by `mix` and by the default `FH_INIT`. -/
  p0 : W64
  /-- The prime `P1`. -/
  p1 : W64
  /-- The prime `P2`. -/
  p2 : W64
  /-- The prime `P3`. -/
  p3 : W64
  /-- The prime `P4`. -/
  p4 : W64
  /-- `SALT_INC`, two 64-bit lanes. -/
  saltInc : V128
  /-- `ROT_DIR`. -/
  rotDir : RotDir
  /-- `ENC`. -/
  encChoice : Choice
  /-- `DEC`. -/
  decChoice : Choice
  /-- `FH_INIT`. -/
  initChoice : Choice
  /-- `FH_ODD`. -/
  oddChoice : Choice
  /-- `FH_BULK`. -/
  bulkChoice : Choice
  /-- `FH_PAIR`. -/
  pairChoice : Choice
  /-- `FH_COMB`. -/
  combChoice : Choice
  /-- `REGBASE`: where the platform places the register block. -/
  regbase : Addr
  deriving DecidableEq, Repr

/-- The `n`-th free value: any value of the width (U3, U4). Log entry 6. -/
opaque Config.freeValue : (w : Nat) → Nat → BitVec w

/-- A platform's encrypt round: a function of data and key (R6, R209). -/
opaque Config.platformEnc : V128 → V128 → V128

/-- A platform's decrypt round: a function of data and key (R6, R209). -/
opaque Config.platformDec : V128 → V128 → V128

/-- A platform's `FH_INIT`: a function of the parameters, the seed and the length (R209). -/
opaque Config.platformInit : Params → W64 → W64 → V128 × V128

/-- A platform's `FH_ODD` (R209). -/
opaque Config.platformOdd : Params → V128 → V128 → V128 → V128 × V128

/-- A platform's `FH_BULK`, on `x`, `y`, `salt` and the eight blocks (R209). -/
opaque Config.platformBulk : Params → V128 → V128 → V128 →
  V128 → V128 → V128 → V128 → V128 → V128 → V128 → V128 → V128 × V128 × V128

/-- A platform's `FH_PAIR` (R209). -/
opaque Config.platformPair : Params → V128 → V128 → V128 → V128 → V128 × V128

/-- A platform's `FH_COMB`: the values of `A` and `B` (R209). -/
opaque Config.platformComb : Params → V128 → V128 → W64 × W64

end Sys2Proof
end

