-- ==== Sys2Proof/Machine/Defaults.lean ====
section
/-!
DEFINITION. The default values of the OPEN parameters (00_scope.md R6; 93_implementation_defined.md G1, G2).
-/

namespace Sys2Proof.Machine

/-- The defaults of R6. PRESUMED (by the spec itself: "from general knowledge, not in source"), log entry 13; no default is
given for `REGBASE`: DESIGN CHOICE 0, log entry 15. -/
def defaultParams : Params where
  p0 := 0xEC99BF0D8372CAAB
  p1 := 0x82434FE90EDCEF39
  p2 := 0xD4F06DB99D67BE4B
  p3 := 0xBD9CACC22C6E9571
  p4 := 0x9C06FAF4D023E3AB
  saltInc := 0xC060724A8424F345CB5AF53AE3AAAC31
  rotDir := .right
  encChoice := .specDefault
  decChoice := .specDefault
  initChoice := .specDefault
  oddChoice := .specDefault
  bulkChoice := .specDefault
  pairChoice := .specDefault
  combChoice := .specDefault
  regbase := 0

end Sys2Proof.Machine
end

