-- ==== Sys2Proof/Machine/State.lean ====
section
/-!
DEFINITION. The state of the engine (10_state.md R31 to R49, R58; 70_reset_and_hazards.md R311), the events its
surroundings can send it (R30, R39, R93, R310), and why a step can stop.
-/

namespace Sys2Proof.Machine

/-- The sequencer phases (R42), with `FU_ONLY` as the three phases R251 suggests. -/
inductive Phase where
  | idle
  | m32Body
  | m32Fin
  | m64Body
  | m64Fin
  | fhInit
  | fhOdd
  | fhBlk
  | fhTail
  | fhFin
  | fuOnly32
  | fuOnly64
  | fuOnlyFh
  deriving DecidableEq, Repr

/-- The values of `STATUS.ECODE` (R270): 4 to 15 are never produced (93_implementation_defined.md U8). -/
inductive ECode where
  | none
  | illegalCommand
  | badLength
  | busError
  deriving DecidableEq, Repr

/-- The fields of `STATUS` (R33); bits 63:8 are reserved and not stored. -/
structure Status where
  busy : Bool
  done : Bool
  err : Bool
  ovr : Bool
  ecode : ECode
  deriving DecidableEq, Repr

/-- How the memory answers at an address range, where it is not ordinary memory. -/
inductive RegionKind where
  /-- Reads have side effects: a buffer over it is outside the contract (R87, U5). -/
  | sideEffect
  /-- The memory never answers (U10, R320). -/
  | silent
  deriving DecidableEq, Repr

/-- A range of buffer addresses that is not ordinary memory. -/
structure Region where
  base : Nat
  size : Nat
  kind : RegionKind
  deriving DecidableEq, Repr

/-- A true buffer of a caller: `size` bytes from `base` on (R275). -/
structure Extent where
  base : Nat
  size : Nat
  deriving DecidableEq, Repr

/-- The platform's map (R89, U5, U10): nothing writes it. Log entries 10, 11. -/
structure Platform where
  regions : List Region
  /-- The register block at `REGBASE` also answers in the buffer space (R80). -/
  regsMapped : Bool
  deriving DecidableEq, Repr

/-- One step of the engine's surroundings, or the engine's own turn (R30). -/
inductive Event where
  /-- The engine takes its next step, if it has one. -/
  | engine
  /-- A host read of `width` bytes at an offset from `REGBASE` (R39). -/
  | read (offset : BitVec 8) (width : Nat)
  /-- A host write of `width` bytes at an offset from `REGBASE` (R39); at `CMD` it issues a command (R32). -/
  | write (offset : BitVec 8) (width : Nat) (value : W64)
  /-- Another agent writes a byte of the buffer space (R30, R93). -/
  | poke (addr : Addr) (byte : Byte)
  /-- Another agent makes an address unreadable (R93). -/
  | unmap (addr : Addr)
  /-- The callers' true buffers are from now on these (R275); the hardware does not see it. -/
  | declare (buffers : List Extent)
  /-- The reset input is asserted (R310). -/
  | assertReset
  /-- The reset input is released (R310). -/
  | releaseReset
  deriving DecidableEq, Repr

/-- The readable bytes of the buffer space, as (address, byte) pairs in the one canonical form `Memory.wf` describes. -/
abbrev Memory := List Host.Cell

/-- The state of the machine. -/
structure State where
  /-- `STATUS` (R33). -/
  status : Status
  /-- `CTRL.IE` (R34). -/
  ie : Bool
  /-- `DATA` (R35). -/
  data : W64
  /-- `LEN` (R36). -/
  len : W64
  /-- `SEED` (R37). -/
  seed : W64
  /-- `RESULT` (R38). -/
  result : W64
  /-- `PH`, the sequencer phase (R42). -/
  phase : Phase
  /-- `PTR`, the buffer cursor (R43). -/
  ptr : Addr
  /-- `REM`, bytes not yet consumed (R44). -/
  rem : W64
  /-- `NBLK`, whole blocks not yet consumed (R45). -/
  nblk : W64
  /-- `H32`, the Mix32 accumulator (R46). -/
  h32 : W32
  /-- `H64`, the Mix64A accumulator (R47). -/
  h64 : W64
  /-- `A`, a scalar accumulator of FastHash64 (R48). -/
  a : W64
  /-- `B`, a scalar accumulator of FastHash64 (R48). -/
  b : W64
  /-- `X`, a block-path accumulator (R49). -/
  x : V128
  /-- `Y`, a block-path accumulator (R49). -/
  y : V128
  /-- `SALT` (R49). -/
  salt : V128
  /-- The reset input: 1 while it is asserted (R310). -/
  rst : Bool
  /-- The buffer memory: the readable bytes, addresses strictly rising (R80). -/
  mem : Memory
  /-- The OPEN parameters (R6, R54). -/
  cfg : Params
  /-- The platform's map (R89). -/
  plat : Platform
  /-- MODEL: the events still to come, the first one first. Log entry 2. -/
  inbox : List Event
  /-- MODEL: what the last host read returned. Log entry 16. -/
  rdata : W64
  /-- MODEL: `DATA_0` of R43, the `DATA` of the running command. Log entry 12. -/
  bufBase : Addr
  /-- MODEL: `LEN_0` of R43, the length of the running command's buffer; 0 where it has none. Log entry 12. -/
  bufLen : W64
  /-- MODEL: a byte of the running command's buffer was changed by another agent (R93). Log entry 12. -/
  raced : Bool
  /-- MODEL: the true buffers, known to the callers and not to the hardware (R275). Log entry 8. -/
  buffers : List Extent
  /-- MODEL: some of the running command's `LEN_0` bytes are not bytes of a true buffer (R275, U1). Log entry 8. -/
  strayed : Bool
  /-- MODEL: how many free values have been drawn. Log entry 6. -/
  free : Nat
  deriving DecidableEq, Repr

/-- A step never stops with a fault: every error of the spec is a next state with the error in `STATUS` (R270, R277), and
there is "no lock-up state" (R280). Log entry 22. -/
inductive Fault where
  deriving DecidableEq, Repr

/-- Why a step is refused. All but the first are situations the spec tells a model to refuse; each is safe, because the
model then says nothing of what the hardware does. -/
inductive Refusal where
  /-- Raised by an arm of `exec` that has no meaning yet; no arm raises it now. Safe. -/
  | notModelled (mnemonic : String)
  /-- Raised by the issue of a memory command whose buffer passes the top of the address space (R89, U1). Safe. -/
  | bufferWraps
  /-- Raised by the issue of a memory command whose buffer meets memory with read side effects (R87, U5). Safe. -/
  | sideEffectBuffer
  /-- Raised by a host access that is not 64 bits wide or not at a multiple of 8 (R39, U6). Safe. -/
  | accessShape
  /-- Raised by a host access while reset is asserted (R310, U11). Safe. -/
  | accessDuringReset
  deriving DecidableEq, Repr

/-- What a step answers. -/
abbrev Outcome := Host.Outcome State Fault Refusal

/-- `STATUS` after reset (R311). -/
def Status.reset : Status := { busy := false, done := false, err := false, ovr := false, ecode := .none }

/-- The machine right after reset (R58, R311). The internal registers other than `PH`, which the spec leaves unspecified,
are 0: DESIGN CHOICE, unsafe, log entry 3. -/
def State.reset : State where
  status := .reset
  ie := false
  data := 0
  len := 0
  seed := 0
  result := 0
  phase := .idle
  ptr := 0
  rem := 0
  nblk := 0
  h32 := 0
  h64 := 0
  a := 0
  b := 0
  x := 0
  y := 0
  salt := 0
  rst := false
  mem := []
  cfg := defaultParams
  plat := { regions := [], regsMapped := false }
  inbox := []
  rdata := 0
  bufBase := 0
  bufLen := 0
  raced := false
  buffers := []
  strayed := false
  free := 0

end Sys2Proof.Machine
end

