-- ==== Sys2Proof/Machine/Arith.lean ====
section
/-!
DEFINITION. The universal finalize/avalanche unit (44_finalize_unit.md R240 to R249) and the arithmetic of 00_scope.md R9
and R11: pure functions, no state.
-/

namespace Sys2Proof.Machine

/-- `M32` (R6). -/
def m32 : W32 := 0xc6a4a793

/-- `M64` (R6). -/
def m64 : W64 := 0xc6a4a7935bd1e995

/-- `MXS32`, the 32-bit multiply-xor-shift stage (R241). -/
def mxs32 (h : W32) (n : Nat) : W32 :=
  let t := h * m32
  t ^^^ (t >>> n)

/-- `FIN32`, the Mix32 finalizer (R242). -/
def fin32 (h : W32) : W32 := mxs32 (mxs32 h 10) 17

/-- The shift-xor of Mix64A, with `R64 = 47` (R243, R248). -/
def shiftXor64 (h : W64) : W64 := h ^^^ (h >>> 47)

/-- `FIN64`, the Mix64A finalizer (R243). -/
def fin64 (h : W64) : W64 := shiftXor64 (shiftXor64 h * m64)

/-- `SCR64`, the Mix64A word scramble (R248). -/
def scr64 (k : W64) : W64 := shiftXor64 (k * m64) * m64

/-- `mulfull`, the full 128-bit product (R9). -/
def mulFull (v p : W64) : V128 := v.setWidth 128 * p.setWidth 128

/-- The high lane of a 128-bit value (R11). -/
def hiLane (v : V128) : W64 := v.extractLsb' 64 64

/-- The low lane of a 128-bit value (R11). -/
def loLane (v : V128) : W64 := v.extractLsb' 0 64

/-- `mux`, the 128-bit multiply-xor-fold (R245). -/
def mux (v p : W64) : W64 := hiLane (mulFull v p) ^^^ loLane (mulFull v p)

/-- `rotr_64` (R9). -/
def rotr64 (v : W64) (n : Nat) : W64 := (v >>> n) ||| (v <<< (64 - n))

/-- The rotate to the left on 64 bits, the other value of `ROT_DIR` (R6, R244). -/
def rotl64 (v : W64) (n : Nat) : W64 := (v <<< n) ||| (v >>> (64 - n))

/-- The rotate of FastHash64, in the direction `ROT_DIR` (R244). -/
def rotate (c : Params) (v : W64) (n : Nat) : W64 :=
  match c.rotDir with
  | .right => rotr64 v n
  | .left => rotl64 v n

/-- `mix`, on the low 64 bits of the product (R246). -/
def mix (c : Params) (v p : W64) : W64 :=
  let q := v * p
  rotate c q 41 ^^^ q

/-- `FINFH`, the FastHash64 final hash (R247). -/
def finFh (c : Params) (a b : W64) : W64 := mux (rotate c (a + b) 17) c.p4 + mix c (a ^^^ b) c.p0

/-- The 128-bit value with the given lanes (R11). -/
def lanes (hi lo : W64) : V128 := hi ++ lo

/-- `add2`, the lane-wise sum (R11). -/
def add2 (u v : V128) : V128 := lanes (hiLane u + hiLane v) (loLane u + loLane v)

/-- `sub2`, the lane-wise difference (R11). -/
def sub2 (u v : V128) : V128 := lanes (hiLane u - hiLane v) (loLane u - loLane v)

end Sys2Proof.Machine
end

