-- ==== Sys2Proof/Machine/Flags.lean ====
section
/-!
DEFINITION. `STATUS`, `CTRL` and `irq` (10_state.md R33, R34, R40, R57; 60_exceptions.md R270, R274, R277): the words a
host reads and every change of the flags. There are no arithmetic flags (R53).
-/

namespace Sys2Proof.Machine

/-- The code of an error in `STATUS[7:4]` (R270). -/
def ecodeBits : ECode → BitVec 4
  | .none => 0
  | .illegalCommand => 1
  | .badLength => 2
  | .busError => 3

/-- The word a read of `STATUS` returns (R33). -/
def statusWord (st : Status) : W64 :=
  (0 : BitVec 56) ++ ecodeBits st.ecode ++ BitVec.ofBool st.ovr ++ BitVec.ofBool st.err ++ BitVec.ofBool st.done
    ++ BitVec.ofBool st.busy

/-- The word a read of `CTRL` returns (R34). -/
def ctrlWord (ie : Bool) : W64 := (0 : BitVec 63) ++ BitVec.ofBool ie

/-- What a write of `w` to `STATUS` does: write-one-to-clear on bits 1, 2 and 3, and nothing else (R33). -/
def statusAfterWrite (w : W64) (st : Status) : Status :=
  { st with
    done := st.done && !w.getLsbD 1
    err := st.err && !w.getLsbD 2
    ecode := if w.getLsbD 2 then .none else st.ecode
    ovr := st.ovr && !w.getLsbD 3 }

/-- What every `CMD` write that is not dropped does first (R112). -/
def statusCleared (st : Status) : Status := { st with done := false, err := false, ecode := .none }

/-- The flags when a command is accepted (R112). -/
def statusAccepted (st : Status) : Status := { st with busy := true }

/-- The flags when a `CMD` write meets a busy engine (R274). -/
def statusOverrun (st : Status) : Status := { st with ovr := true }

/-- The flags on error entry (R277). -/
def statusRaised (c : ECode) (st : Status) : Status := { st with err := true, ecode := c, busy := false }

/-- The flags when a command completes (R57). -/
def statusCompleted (st : Status) : Status := { st with done := true, busy := false }

/-- The interrupt output, a level (R40, R281). -/
def State.irq (s : State) : Bool := s.ie && (s.status.done || s.status.err)

end Sys2Proof.Machine
end

