-- ==== Sys2Proof/Machine/Operands.lean ====
section
/-!
DEFINITION. Operand assembly (30_encoding.md R113): every operand is a fixed register or a part of one.
-/

namespace Sys2Proof.Machine

/-- `SEED[31:0]`, the seed of `MIX32` and the operand `h` of `FIN32` (R37, R113). -/
def State.seed32 (s : State) : W32 := s.seed.extractLsb' 0 32

/-- `LEN[31:0]` (R113). -/
def State.len32 (s : State) : W32 := s.len.extractLsb' 0 32

/-- `LEN[63:31] != 0`: the length is no non-negative `int32` (R36, R272). -/
def State.lenTooLong (s : State) : Bool := s.len.extractLsb' 31 33 != 0

/-- `LEN > 32`, unsigned on all 64 bits: the FastHash64 block path is taken (R181). -/
def State.takesBlockPath (s : State) : Bool := decide (32 < s.len.toNat)

end Sys2Proof.Machine
end

