-- ==== Sys2Proof/Machine/Ops.lean ====
section
/-!
DEFINITION. The shared operations: the buffer memory and its port (20_memory.md), accepting, completing and rejecting a
command (30_encoding.md R112; 10_state.md R57), error entry (60_exceptions.md R277) and reset (70_reset_and_hazards.md
R310).
-/

namespace Sys2Proof.Machine

/-! ### The buffer memory -/

/-- What an address that is not listed holds: nothing, so that a read of it is a bus error (R81, R89). DESIGN CHOICE, log
entry 7. -/
def unlisted : Option Byte := none

/-- The byte at an address, if the memory has one there. -/
def Memory.lookup : Memory → Nat → Option Byte
  | [], _ => unlisted
  | (k, v) :: m, a => if k = a then some v else Memory.lookup m a

/-- The memory with a byte written. -/
def Memory.store : Memory → Nat → Byte → Memory
  | [], a, b => [(a, b)]
  | (k, v) :: m, a, b =>
    if a < k then (a, b) :: (k, v) :: m
    else if a = k then (a, b) :: m
    else (k, v) :: Memory.store m a b

/-- The memory with an address made unreadable. -/
def Memory.erase : Memory → Nat → Memory
  | [], _ => []
  | (k, v) :: m, a => if k = a then m else (k, v) :: Memory.erase m a

/-- Addresses at least `lo`, below `2^64`, strictly rising. -/
def Memory.wfFrom : Nat → Memory → Bool
  | _, [] => true
  | lo, (k, _) :: m => decide (lo ≤ k) && decide (k < 2 ^ 64) && Memory.wfFrom (k + 1) m

/-- The canonical form of the memory. -/
def Memory.wf (m : Memory) : Bool := Memory.wfFrom 0 m

/-! ### The memory port -/

/-- The answer to a read: a value, a bus error (R81), or none at all (U10). -/
inductive Answer (α : Type) where
  | value (v : α)
  | busError
  | noAnswer
  deriving DecidableEq, Repr

/-- A further read after an answer. -/
def Answer.andThen {α β : Type} (r : Answer α) (k : α → Answer β) : Answer β :=
  match r with
  | .value v => k v
  | .busError => .busError
  | .noAnswer => .noAnswer

/-- A function of the answer's value. -/
def Answer.map {α β : Type} (f : α → β) (r : Answer α) : Answer β := r.andThen fun v => .value (f v)

/-- The address lies in the region. -/
def Region.holds (r : Region) (a : Nat) : Bool := decide (r.base ≤ a) && decide (a < r.base + r.size)

/-- The region and the `n` bytes at `base` share an address. -/
def Region.meets (r : Region) (base n : Nat) : Bool :=
  decide (0 < n) && decide (0 < r.size) && decide (base < r.base + r.size) && decide (r.base < base + n)

/-- The memory never answers at this address (U10). -/
def State.silentAt (s : State) (a : Nat) : Bool := s.plat.regions.any fun r => r.kind == .silent && r.holds a

/-- The answer to a read of one byte (R81). -/
def byteAnswer (s : State) (a : Addr) : Answer Byte :=
  if s.silentAt a.toNat then .noAnswer
  else match s.mem.lookup a.toNat with
    | some b => .value b
    | none => .busError

/-- `MemRead`: the `n` bytes at `a`, `a + 1`, ..., modulo `2^64`; a bus error on any of them is one of the whole (R81).
The bytes are asked for in ascending order; no order is promised (R86), log entry 18. -/
def memRead (s : State) : Addr → Nat → Answer (List Byte)
  | _, 0 => .value []
  | a, n + 1 => (byteAnswer s a).andThen fun v => (memRead s (a + 1) n).map fun vs => v :: vs

/-- The little-endian value of a list of bytes, the first one least significant (R10, R82). -/
def leNat : List Byte → Nat
  | [] => 0
  | v :: vs => v.toNat + 256 * leNat vs

/-- The little-endian value of a list of bytes, zero-extended to `w` bits (R10). -/
def leValue (w : Nat) (bytes : List Byte) : BitVec w := BitVec.ofNat w (leNat bytes)

/-- `MemRead` as a number of `w` bits (R12, R81). -/
def readWord (s : State) (w : Nat) (a : Addr) (n : Nat) : Answer (BitVec w) := (memRead s a n).map (leValue w)

/-- The ranges in which reads have side effects: the platform's, and the register block itself where it answers in the
buffer space (R80, R87, U5); a block that passes the top of the address space goes on at 0. -/
def State.sideEffectRanges (s : State) : List Region :=
  s.plat.regions.filter (fun r => r.kind == .sideEffect) ++
    if s.plat.regsMapped then
      [⟨s.cfg.regbase.toNat, 256, .sideEffect⟩, ⟨0, s.cfg.regbase.toNat + 256 - 2 ^ 64, .sideEffect⟩]
    else []

/-! ### Errors -/

/-- All the internal registers but `PH` take free values: they are unspecified (U3). Log entries 4, 6. -/
def forgetInternals (s : State) : State :=
  { s with
    ptr := Config.freeValue 64 s.free
    rem := Config.freeValue 64 (s.free + 1)
    nblk := Config.freeValue 64 (s.free + 2)
    h32 := Config.freeValue 32 (s.free + 3)
    h64 := Config.freeValue 64 (s.free + 4)
    a := Config.freeValue 64 (s.free + 5)
    b := Config.freeValue 64 (s.free + 6)
    x := Config.freeValue 128 (s.free + 7)
    y := Config.freeValue 128 (s.free + 8)
    salt := Config.freeValue 128 (s.free + 9)
    free := s.free + 10 }

/-- Error entry, the meaning of `raise` (R277). Nothing else is saved. -/
def raiseError (c : ECode) (s : State) : State := { s with status := statusRaised c s.status, phase := .idle }

/-- The end of a command whose read the memory refused (R273): error entry, and the accumulators are unspecified. -/
def raiseBusError (s : State) : State := forgetInternals (raiseError .busError s)

/-- An engine step that depends on a read: the step's effect on the value, `BusError` on a bus error (R273), and no step
while the memory does not answer (U10, R320). -/
def onAnswer {α : Type} (s : State) (r : Answer α) (k : α → State) : State :=
  match r with
  | .value v => k v
  | .busError => raiseBusError s
  | .noAnswer => s

/-! ### Completing a command -/

/-- `complete(v)` (R57). -/
def complete (v : W64) (s : State) : State :=
  { s with result := v, status := statusCompleted s.status, phase := .idle }

/-- The caller's contract on the bytes was broken: they changed under the command (R93, U4), or are not all bytes of a true
buffer (R275, U1). Log entries 8, 12. -/
def State.resultOpen (s : State) : Bool := s.raced || s.strayed

/-- Completion with the command's value; where the caller's contract on the bytes was broken, no rule gives `RESULT`, and all
64 bits of it are a free value (R93, R275, U1, U4). -/
def deliver (v : W64) (s : State) : State :=
  if s.resultOpen then complete (Config.freeValue 64 s.free) { s with free := s.free + 1 } else complete v s

/-! ### Issuing a command -/

/-- A `CMD` write that meets a busy engine: the word is dropped (R274). -/
def overrun (s : State) : State := { s with status := statusOverrun s.status }

/-- The issue step's first lines (R112): a busy engine drops the word; otherwise `DONE`, `ERR`, `ECODE` are cleared and the
checks follow. -/
def issue (s : State) (checks : State → Outcome) : Outcome :=
  if s.status.busy then .next (overrun s) else checks { s with status := statusCleared s.status }

/-- Acceptance of a command that reads no memory (R112, R251). -/
def accept (s : State) : State :=
  { s with status := statusAccepted s.status, raced := false, strayed := false, bufBase := 0, bufLen := 0 }

/-- The `n` bytes at `base` are bytes of one of the true buffers; no bytes always are (R275). -/
def inTrueBuffer (buffers : List Extent) (base n : Nat) : Bool :=
  n == 0 || buffers.any fun e => decide (e.base ≤ base) && decide (base + n ≤ e.base + e.size)

/-- Why a model refuses a memory command: its buffer wraps (R89), or meets memory with read side effects (R87). -/
def bufferRefusal (s : State) : Option Refusal :=
  if 2 ^ 64 < s.data.toNat + s.len.toNat then some .bufferWraps
  else if s.sideEffectRanges.any fun r => r.meets s.data.toNat s.len.toNat then some .sideEffectBuffer
  else none

/-- Acceptance of a command that reads the buffer: the caller's contract, then the init rule's operands `PTR` and `REM`,
which are the same for `MIX32`, `MIX64A` and `FH64` (R43, R44, R112); `init` is the rest of the init rule. A length beyond the
true buffer is not detected (R275): it shows only in the model's own `strayed`. -/
def acceptBuffer (s : State) (init : State → State) : Outcome :=
  match bufferRefusal s with
  | some r => .refused r
  | none => .next (init { s with
      status := statusAccepted s.status, ptr := s.data, rem := s.len, raced := false, bufBase := s.data, bufLen := s.len
      strayed := !inTrueBuffer s.buffers s.data.toNat s.len.toNat })

/-! ### The surroundings -/

/-- The address lies in the buffer of the running command (R93). -/
def State.inBuffer (s : State) (a : Nat) : Bool :=
  s.status.busy && decide (s.bufBase.toNat ≤ a) && decide (a < s.bufBase.toNat + s.bufLen.toNat)

/-- Another agent writes a byte (R30). A change of the running command's buffer is a race (R93); a write of the value
already there changes nothing. -/
def pokeByte (a : Addr) (v : Byte) (s : State) : State :=
  { s with
    mem := s.mem.store a.toNat v
    raced := s.raced || (s.inBuffer a.toNat && s.mem.lookup a.toNat != some v) }

/-- Another agent makes an address unreadable (R93). -/
def unmapByte (a : Addr) (s : State) : State :=
  { s with
    mem := s.mem.erase a.toNat
    raced := s.raced || (s.inBuffer a.toNat && s.mem.lookup a.toNat != unlisted) }

/-- The callers' true buffers change: the bytes of a running command must stay bytes of one (R275). -/
def declareBuffers (buffers : List Extent) (s : State) : State :=
  { s with
    buffers := buffers
    strayed := s.strayed || (s.status.busy && !inTrueBuffer buffers s.bufBase.toNat s.bufLen.toNat) }

/-- The reset transition, from any state (R310 to R312): the host-visible registers are 0 and `PH` is `IDLE`, the internal
registers are unspecified, the configuration, the memory and the events to come are not touched. -/
def resetEngine (s : State) : State :=
  forgetInternals { s with
    status := .reset, ie := false, data := 0, len := 0, seed := 0, result := 0, phase := .idle
    raced := false, strayed := false, bufBase := 0, bufLen := 0 }

end Sys2Proof.Machine
end

