-- ==== Sys2Proof/Machine/Block.lean ====
section
/-!
DEFINITION. The configuration functions of the FastHash64 block path (43_fasthash64_block.md R204 to R210): the spec's
defaults, or a platform's (R209). Log entry 14.
-/

namespace Sys2Proof.Machine

/-- `FH_INIT`: the first `X` and `Y` from seed and length (R204). -/
def fhInit (c : Params) (seed len : W64) : V128 × V128 :=
  match c.initChoice with
  | .platform => Config.platformInit c seed len
  | .specDefault =>
    let x := lanes seed len
    (x, enc c x (lanes c.p0 c.p1))

/-- `FH_ODD`: fold a single block into `X`, then advance `Y` (R205). -/
def fhOdd (c : Params) (x y v : V128) : V128 × V128 :=
  match c.oddChoice with
  | .platform => Config.platformOdd c x y v
  | .specDefault =>
    let x1 := add2 x v
    (x1, enc c x1 y)

/-- `FH_BULK`: eight blocks, one round each, then the salt advance and the fold (R206). -/
def fhBulk (c : Params) (x y salt v0 v1 v2 v3 v4 v5 v6 v7 : V128) : V128 × V128 × V128 :=
  match c.bulkChoice with
  | .platform => Config.platformBulk c x y salt v0 v1 v2 v3 v4 v5 v6 v7
  | .specDefault =>
    let t0 := enc c v0 salt
    let t1 := dec c t0 v1
    let t2 := dec c t1 v2
    let t3 := dec c t2 v3
    let t4 := dec c t3 v4
    let t5 := dec c t4 v5
    let t6 := dec c t5 v6
    let t7 := dec c t6 v7
    (add2 y x, enc c x t7, add2 salt c.saltInc)

/-- `FH_PAIR`: two blocks, both rounds on the old `X` and `Y` (R207). -/
def fhPair (c : Params) (x y v0 v1 : V128) : V128 × V128 :=
  match c.pairChoice with
  | .platform => Config.platformPair c x y v0 v1
  | .specDefault => (dec c x (add2 y v0), dec c y (sub2 x v1))

/-- `FH_COMB`: the scalar accumulators `A` and `B` from `X` and `Y` (R208). -/
def fhComb (c : Params) (x y : V128) : W64 × W64 :=
  match c.combChoice with
  | .platform => Config.platformComb c x y
  | .specDefault =>
    let e := enc c y x
    let z := add2 (dec c x e) y
    (loLane z, hiLane z)

end Sys2Proof.Machine
end

