-- ==== Sys2Proof/Machine/FastHash64.lean ====
section
/-!
DEFINITION. The FastHash64 engine (42_fasthash64_scalar.md, 43_fasthash64_block.md R201 to R203): the issue of `FH64` and
its engine steps.
-/

namespace Sys2Proof.Machine

/-- The rest of the init of `FH64` (R181). -/
def initFh64 (s : State) : State :=
  { s with a := s.seed, b := s.len, phase := if s.takesBlockPath then .fhInit else .fhTail }

/-- `FH64`, the issue step: no length check (R112, R180, R181, R189). -/
def execFh64 (s : State) : Outcome := issue s fun s => acceptBuffer s initFh64

/-- The `FH_INIT` step: it reads no memory (R201). -/
def fhInitStep (s : State) : State :=
  let xy := fhInit s.cfg s.a s.b
  { s with x := xy.1, y := xy.2, nblk := s.rem >>> 4, rem := s.rem &&& 15, phase := .fhOdd }

/-- The `FH_ODD` step: one block if the count is odd, then `SALT` from the new `Y` (R202). -/
def fhOddStep (s : State) : State :=
  if s.nblk.getLsbD 0 then
    onAnswer s (readWord s 128 s.ptr 16) fun v =>
      let xy := fhOdd s.cfg s.x s.y v
      { s with x := xy.1, y := xy.2, ptr := s.ptr + 16, nblk := s.nblk - 1, salt := xy.2, phase := .fhBlk }
  else { s with salt := s.y, phase := .fhBlk }

/-- A bulk iteration: eight blocks (R203 step 3). -/
def fhBulkStep (s : State) : State :=
  onAnswer s
    ((readWord s 128 s.ptr 16).andThen fun v0 => (readWord s 128 (s.ptr + 16) 16).andThen fun v1 =>
      (readWord s 128 (s.ptr + 32) 16).andThen fun v2 => (readWord s 128 (s.ptr + 48) 16).andThen fun v3 =>
      (readWord s 128 (s.ptr + 64) 16).andThen fun v4 => (readWord s 128 (s.ptr + 80) 16).andThen fun v5 =>
      (readWord s 128 (s.ptr + 96) 16).andThen fun v6 => (readWord s 128 (s.ptr + 112) 16).map fun v7 =>
      fhBulk s.cfg s.x s.y s.salt v0 v1 v2 v3 v4 v5 v6 v7)
    fun q => { s with x := q.1, y := q.2.1, salt := q.2.2, ptr := s.ptr + 128, nblk := s.nblk - 8 }

/-- A pair: two blocks (R203 step 4). -/
def fhPairStep (s : State) : State :=
  onAnswer s
    ((readWord s 128 s.ptr 16).andThen fun v0 => (readWord s 128 (s.ptr + 16) 16).map fun v1 =>
      fhPair s.cfg s.x s.y v0 v1)
    fun q => { s with x := q.1, y := q.2, ptr := s.ptr + 32, nblk := s.nblk - 2 }

/-- The final combine: `A` and `B` from `X` and `Y` (R203 step 5). -/
def fhCombStep (s : State) : State :=
  let ab := fhComb s.cfg s.x s.y
  { s with a := ab.1, b := ab.2, phase := .fhTail }

/-- The `FH_BLK` step: a bulk iteration, a pair or the combine, chosen by `NBLK` (R203). -/
def fhBlkStep (s : State) : State :=
  if 8 ≤ s.nblk.toNat then fhBulkStep s else if 2 ≤ s.nblk.toNat then fhPairStep s else fhCombStep s

/-- The read of a scalar bracket: the `n` bytes at `ptr`, folded into `acc` with prime `p`, and the next address (R182). -/
def bracket (s : State) (p : W64) (n : Nat) (acc : W64) (ptr : Addr) : Answer (W64 × Addr) :=
  (readWord s 64 ptr n).map fun v => (acc + mux v p, ptr + BitVec.ofNat 64 n)

/-- A scalar bracket that fires only under its test (R182). -/
def bracketIf (fires : Bool) (s : State) (p : W64) (n : Nat) (acc : W64) (ptr : Addr) : Answer (W64 × Addr) :=
  if fires then bracket s p n acc ptr else .value (acc, ptr)

/-- The four brackets of the scalar tail on the entry count `r`: the new `A`, `B` and `PTR` (R182). -/
def brackets (s : State) (r : Nat) : Answer (W64 × W64 × Addr) :=
  (bracketIf (decide (24 < r)) s s.cfg.p4 8 s.b s.ptr).andThen fun q4 =>
    (bracketIf (decide (16 < r)) s s.cfg.p3 8 s.a q4.2).andThen fun q3 =>
    (bracketIf (decide (8 < r)) s s.cfg.p2 8 q4.1 q3.2).andThen fun q2 =>
    (bracketIf (decide (0 < r)) s s.cfg.p1 ((r - 1) % 8 + 1) q3.1 q2.2).map fun q1 => (q1.1, q2.1, q1.2)

/-- The `FH_TAIL` step: the scalar tail (R182). -/
def fhTailStep (s : State) : State :=
  onAnswer s (brackets s s.rem.toNat) fun q =>
    { s with a := q.1, b := q.2.1, ptr := q.2.2, rem := 0, phase := .fhFin }

/-- The `FH_FIN` step: the final hash (R186). -/
def fhFinStep (s : State) : State := deliver (finFh s.cfg s.a s.b) s

end Sys2Proof.Machine
end

