-- ==== Sys2Proof/Machine/Finalize.lean ====
section
/-!
DEFINITION. The finalize-only commands (44_finalize_unit.md R251 to R254): their issue and their one engine step each.
-/

namespace Sys2Proof.Machine

/-- `FIN32`, the issue step: no length check, no memory (R112, R251, R252). -/
def execFin32 (s : State) : Outcome := issue s fun s => .next { accept s with h32 := s.seed32, phase := .fuOnly32 }

/-- `FIN64`, the issue step (R112, R251, R253). -/
def execFin64 (s : State) : Outcome := issue s fun s => .next { accept s with h64 := s.seed, phase := .fuOnly64 }

/-- `FINFH`, the issue step: `LEN` is the second operand and is not checked (R112, R251, R254). -/
def execFinfh (s : State) : Outcome := issue s fun s => .next { accept s with a := s.seed, b := s.len, phase := .fuOnlyFh }

/-- The `FU_ONLY` step of `FIN32` (R251). -/
def fuOnly32Step (s : State) : State := deliver ((fin32 s.h32).setWidth 64) s

/-- The `FU_ONLY` step of `FIN64` (R251). -/
def fuOnly64Step (s : State) : State := deliver (fin64 s.h64) s

/-- The `FU_ONLY` step of `FINFH` (R251). -/
def fuOnlyFhStep (s : State) : State := deliver (finFh s.cfg s.a s.b) s

end Sys2Proof.Machine
end

