-- ==== Sys2Proof/Machine/Mix32.lean ====
section
/-!
DEFINITION. The Mix32 engine (40_mix32.md): the issue of `MIX32` and its engine steps.
-/

namespace Sys2Proof.Machine

/-- The rest of the init of `MIX32` (R141). -/
def initMix32 (s : State) : State := { s with h32 := s.seed32 ^^^ (s.len32 * m32), phase := .m32Body }

/-- `MIX32`, the issue step (R112, R140, R141, R147). -/
def execMix32 (s : State) : Outcome :=
  issue s fun s => if s.lenTooLong then .next (raiseError .badLength s) else acceptBuffer s initMix32

/-- The `M32_BODY` step on a whole word (R142). -/
def m32Word (s : State) : State :=
  onAnswer s (readWord s 32 s.ptr 4) fun k =>
    { s with h32 := mxs32 (s.h32 + k) 16, ptr := s.ptr + 4, rem := s.rem - 4 }

/-- The folds of the tail, highest offset first: the bytes at offsets `t - 1` to `0` added to `h` (R143). -/
def m32Folds (s : State) : Nat → W32 → Answer W32
  | 0, h => .value h
  | j + 1, h => (readWord s 32 (s.ptr + BitVec.ofNat 64 j) 1).andThen fun v => m32Folds s j (h + (v <<< (8 * j)))

/-- The `M32_BODY` step on the tail of 0 to 3 bytes; no multiply for an empty tail (R143). -/
def m32Tail (s : State) : State :=
  onAnswer s (m32Folds s s.rem.toNat s.h32) fun h =>
    { s with
      h32 := if s.rem = 0 then h else mxs32 h 16
      ptr := s.ptr + s.rem, rem := 0, phase := .m32Fin }

/-- The `M32_BODY` step (R142, R143). -/
def m32Body (s : State) : State := if 4 ≤ s.rem.toNat then m32Word s else m32Tail s

/-- The `M32_FIN` step (R144). -/
def m32Fin (s : State) : State := deliver ((fin32 s.h32).setWidth 64) { s with h32 := fin32 s.h32 }

end Sys2Proof.Machine
end

