-- ==== Sys2Proof/Machine/Mix64a.lean ====
section
/-!
DEFINITION. The Mix64A engine (41_mix64a.md): the issue of `MIX64A` and its engine steps.
-/

namespace Sys2Proof.Machine

/-- The rest of the init of `MIX64A` (R161). -/
def initMix64a (s : State) : State := { s with h64 := s.seed ^^^ (s.len32.setWidth 64 * m64), phase := .m64Body }

/-- `MIX64A`, the issue step (R112, R160, R161, R167). -/
def execMix64a (s : State) : Outcome :=
  issue s fun s => if s.lenTooLong then .next (raiseError .badLength s) else acceptBuffer s initMix64a

/-- The `M64_BODY` step on a whole word (R162). -/
def m64Word (s : State) : State :=
  onAnswer s (readWord s 64 s.ptr 8) fun k =>
    { s with h64 := (s.h64 ^^^ scr64 k) * m64, ptr := s.ptr + 8, rem := s.rem - 8 }

/-- The folds of the tail, highest offset first: the bytes at offsets `t - 1` to `0` into `h` by exclusive or (R163). -/
def m64Folds (s : State) : Nat → W64 → Answer W64
  | 0, h => .value h
  | j + 1, h => (readWord s 64 (s.ptr + BitVec.ofNat 64 j) 1).andThen fun v => m64Folds s j (h ^^^ (v <<< (8 * j)))

/-- The `M64_BODY` step on the tail of 0 to 7 bytes; no multiply for an empty tail (R163). -/
def m64Tail (s : State) : State :=
  onAnswer s (m64Folds s s.rem.toNat s.h64) fun h =>
    { s with
      h64 := if s.rem = 0 then h else h * m64
      ptr := s.ptr + s.rem, rem := 0, phase := .m64Fin }

/-- The `M64_BODY` step (R162, R163). -/
def m64Body (s : State) : State := if 8 ≤ s.rem.toNat then m64Word s else m64Tail s

/-- The `M64_FIN` step (R164). -/
def m64Fin (s : State) : State := deliver (fin64 s.h64) { s with h64 := fin64 s.h64 }

end Sys2Proof.Machine
end

