-- ==== Sys2Proof/Machine/Engine.lean ====
section
/-!
DEFINITION. The engine's step: the step of the current phase (10_state.md R30, R42, R55, R56).
-/

namespace Sys2Proof.Machine

/-- The step of the current phase; in `IDLE` the engine has none (R56). -/
def phaseStep (s : State) : State :=
  match s.phase with
  | .idle => s
  | .m32Body => m32Body s
  | .m32Fin => m32Fin s
  | .m64Body => m64Body s
  | .m64Fin => m64Fin s
  | .fhInit => fhInitStep s
  | .fhOdd => fhOddStep s
  | .fhBlk => fhBlkStep s
  | .fhTail => fhTailStep s
  | .fhFin => fhFinStep s
  | .fuOnly32 => fuOnly32Step s
  | .fuOnly64 => fuOnly64Step s
  | .fuOnlyFh => fuOnlyFhStep s

/-- The engine's turn: it has a step exactly when `BUSY = 1` (R30), and none while reset is asserted (R310). -/
def engineTurn (s : State) : State := if s.status.busy && !s.rst then phaseStep s else s

end Sys2Proof.Machine
end

