-- ==== Sys2Proof/Machine/Dispatch.lean ====
section
/-!
DEFINITION. The meaning of each command: its issue step (30_encoding.md R111, R112). The engine steps that follow are taken
by `step`. Log entries 19, 21.
-/

namespace Sys2Proof.Machine

def exec (i : Instr) (s : State) : Host.Outcome State Fault Refusal :=
  match i with
  | .mix32 => Sys2Proof.Machine.execMix32 s
  | .mix64a => Sys2Proof.Machine.execMix64a s
  | .fh64 => Sys2Proof.Machine.execFh64 s
  | .fin32 => Sys2Proof.Machine.execFin32 s
  | .fin64 => Sys2Proof.Machine.execFin64 s
  | .finfh => Sys2Proof.Machine.execFinfh s

end Sys2Proof.Machine
end

