-- ==== Sys2Proof/Machine/HostPort.lean ====
section
/-!
DEFINITION. The register port (10_state.md R31 to R39; 60_exceptions.md R287): every register access but the issue of a
command.
-/

namespace Sys2Proof.Machine

/-- The registers of the block, by offset (R31); `reserved` stands for the offsets `0x38` to `0xF8` (R39). -/
inductive Register where
  | cmd
  | status
  | ctrl
  | data
  | len
  | seed
  | result
  | reserved
  deriving DecidableEq, Repr

/-- The register at an offset (R31). -/
def registerAt (offset : BitVec 8) : Register :=
  if offset = 0x00 then .cmd
  else if offset = 0x08 then .status
  else if offset = 0x10 then .ctrl
  else if offset = 0x18 then .data
  else if offset = 0x20 then .len
  else if offset = 0x28 then .seed
  else if offset = 0x30 then .result
  else .reserved

/-- The accesses with a defined effect: 8 bytes wide, at a multiple of 8 (R39, U6). -/
def accessDefined (offset : BitVec 8) (width : Nat) : Bool := width == 8 && offset.toNat % 8 == 0

/-- What a read returns (R31, R39): `CMD` and the reserved offsets read as 0. -/
def readRegister (s : State) : Register → W64
  | .cmd => 0
  | .status => statusWord s.status
  | .ctrl => ctrlWord s.ie
  | .data => s.data
  | .len => s.len
  | .seed => s.seed
  | .result => s.result
  | .reserved => 0

/-- What a write does (R33 to R39). A write to `CMD` is an issue and does nothing here. -/
def writeRegister (s : State) (r : Register) (v : W64) : State :=
  match r with
  | .cmd => s
  | .status => { s with status := statusAfterWrite v s.status }
  | .ctrl => { s with ie := v.getLsbD 0 }
  | .data => { s with data := v }
  | .len => { s with len := v }
  | .seed => { s with seed := v }
  | .result => s
  | .reserved => s

/-- A host read: it changes nothing of the engine (R39). -/
def hostRead (s : State) (offset : BitVec 8) : State := { s with rdata := readRegister s (registerAt offset) }

end Sys2Proof.Machine
end

