-- ==== Sys2Proof/Machine/Events.lean ====
section
/-!
DEFINITION. What each event does to the machine (10_state.md R30, R32; 30_encoding.md R112; 70_reset_and_hazards.md R310).
-/

namespace Sys2Proof.Machine

/-- A write of `w` to `CMD` (R32, R112): dropped undecoded by a busy engine (R274), else decoded; an illegal word is
reported (R271), a command is issued. -/
def issueWord (w : W64) (s : State) : Outcome :=
  if s.status.busy then .next (overrun s)
  else match decode w with
    | .ok i => exec i s
    | .error _ => issue s fun s => .next (raiseError .illegalCommand s)

/-- A host write (R39). -/
def hostWrite (s : State) (offset : BitVec 8) (v : W64) : Outcome :=
  if registerAt offset = .cmd then issueWord v s else .next (writeRegister s (registerAt offset) v)

/-- A host access, if it has a defined effect: not during reset (R310), of the right shape (R39). -/
def guardAccess (s : State) (offset : BitVec 8) (width : Nat) (run : Outcome) : Outcome :=
  if s.rst then .refused .accessDuringReset
  else if accessDefined offset width then run else .refused .accessShape

/-- The step of one event. -/
def takeEvent (e : Event) (s : State) : Outcome :=
  match e with
  | .engine => .next (engineTurn s)
  | .read offset width => guardAccess s offset width (.next (hostRead s offset))
  | .write offset width v => guardAccess s offset width (hostWrite s offset v)
  | .poke addr v => .next (pokeByte addr v s)
  | .unmap addr => .next (unmapByte addr s)
  | .declare buffers => .next (declareBuffers buffers s)
  | .assertReset => .next { resetEngine s with rst := true }
  | .releaseReset => .next { s with rst := false }

/-- The event by which a host issues a command word (R32, R116). -/
def cmdWrite (w : W64) : Event := .write 0x00 8 w

end Sys2Proof.Machine
end

