-- ==== Sys2Proof/Machine/Step.lean ====
section
/-!
DEFINITION. One step of the machine (10_state.md R30): the first event waiting, or, when none waits, the engine's turn, so
that a busy engine eventually steps (70_reset_and_hazards.md R320). Log entries 1, 2.
-/

namespace Sys2Proof.Machine

/-- One step. -/
def step (s : State) : Host.Outcome State Fault Refusal :=
  match s.inbox with
  | [] => .next (engineTurn s)
  | e :: rest => takeEvent e { s with inbox := rest }

/-- The state with a command word as the next thing the host writes, and reset not asserted: a command is not fetched, it
is delivered by a write to `CMD` (R52, R96). -/
def State.withFetchWord (s : State) (nbits w : Nat) : State :=
  { s with inbox := cmdWrite (BitVec.ofNat 64 (w % 2 ^ nbits)) :: s.inbox, rst := false }

end Sys2Proof.Machine
end

