-- ==== Sys2Proof/Machine/Functions.lean ====
section
/-!
DEFINITION. The hash functions as functions of a buffer: what each command computes (40_mix32.md R140, 41_mix64a.md R160,
42_fasthash64_scalar.md R180, R182, 43_fasthash64_block.md R200). The engine's phases are defined elsewhere, rule by rule;
that they compute these functions is a statement.
-/

namespace Sys2Proof.Machine

/-- `LE(n, i)`: the little-endian value of `n` bytes at offset `i`, zero-extended to `w` bits (R10). -/
def leAt (w : Nat) (bytes : List Byte) (n i : Nat) : BitVec w := leValue w ((bytes.drop i).take n)

/-- The Mix32 tail of `t` bytes at offset `i` (R140 step 3, R143): nothing at all for an empty tail. -/
def mix32Tail (bytes : List Byte) (t i : Nat) (h : W32) : W32 :=
  let h2 := if t = 3 then h + (leAt 32 bytes 1 (i + 2) <<< 16) else h
  let h1 := if 2 ≤ t then h2 + (leAt 32 bytes 1 (i + 1) <<< 8) else h2
  if 1 ≤ t then mxs32 (h1 + leAt 32 bytes 1 i) 16 else h1

/-- The first `k` words of Mix32 folded into `h` (R140 step 2). -/
def mix32Words (bytes : List Byte) (k : Nat) (h : W32) : W32 :=
  (List.range k).foldl (fun h j => mxs32 (h + leAt 32 bytes 4 (4 * j)) 16) h

/-- `Mix32(D, n, s)`, with `n` the length of the buffer (R140). -/
def mix32Hash (bytes : List Byte) (seed : W32) : W32 :=
  let n := bytes.length
  let h := seed ^^^ (BitVec.ofNat 32 n * m32)
  fin32 (mix32Tail bytes (n % 4) (n - n % 4) (mix32Words bytes (n / 4) h))

/-- The Mix64A tail of `t` bytes at offset `i` (R160, R163): no multiply for an empty tail. -/
def mix64Tail (bytes : List Byte) (t i : Nat) (h : W64) : W64 :=
  if 1 ≤ t then (h ^^^ leAt 64 bytes t i) * m64 else h

/-- The first `k` words of Mix64A folded into `h` (R160). -/
def mix64Words (bytes : List Byte) (k : Nat) (h : W64) : W64 :=
  (List.range k).foldl (fun h j => (h ^^^ scr64 (leAt 64 bytes 8 (8 * j))) * m64) h

/-- `Mix64A(D, n, s)`, with `n` the length of the buffer (R160). -/
def mix64aHash (bytes : List Byte) (seed : W64) : W64 :=
  let n := bytes.length
  let h := seed ^^^ (BitVec.ofNat 64 n * m64)
  fin64 (mix64Tail bytes (n % 8) (n - n % 8) (mix64Words bytes (n / 8) h))

/-- `ScalarTail(D, off, r, a, b)` (R182): the brackets test the entry count `r`, the words are taken from the front. -/
def scalarTail (c : Params) (bytes : List Byte) (off r : Nat) (a b : W64) : W64 × W64 :=
  let b1 := if 24 < r then b + mux (leAt 64 bytes 8 off) c.p4 else b
  let off1 := if 24 < r then off + 8 else off
  let a1 := if 16 < r then a + mux (leAt 64 bytes 8 off1) c.p3 else a
  let off2 := if 16 < r then off1 + 8 else off1
  let b2 := if 8 < r then b1 + mux (leAt 64 bytes 8 off2) c.p2 else b1
  let off3 := if 8 < r then off2 + 8 else off2
  let a2 := if 0 < r then a1 + mux (leAt 64 bytes ((r - 1) % 8 + 1) off3) c.p1 else a1
  (a2, b2)

/-- One bulk iteration on the eight blocks at offset `off` (R200 step 3). -/
def bulkAt (c : Params) (bytes : List Byte) (off : Nat) (q : V128 × V128 × V128) : V128 × V128 × V128 :=
  fhBulk c q.1 q.2.1 q.2.2 (leAt 128 bytes 16 off) (leAt 128 bytes 16 (off + 16)) (leAt 128 bytes 16 (off + 32))
    (leAt 128 bytes 16 (off + 48)) (leAt 128 bytes 16 (off + 64)) (leAt 128 bytes 16 (off + 80))
    (leAt 128 bytes 16 (off + 96)) (leAt 128 bytes 16 (off + 112))

/-- One pair on the two blocks at offset `off` (R200 step 4). -/
def pairAt (c : Params) (bytes : List Byte) (off : Nat) (q : V128 × V128) : V128 × V128 :=
  fhPair c q.1 q.2 (leAt 128 bytes 16 off) (leAt 128 bytes 16 (off + 16))

/-- The first `k` bulk iterations from offset `off` (R200 step 3). -/
def bulkRun (c : Params) (bytes : List Byte) (off k : Nat) (q : V128 × V128 × V128) : V128 × V128 × V128 :=
  (List.range k).foldl (fun q j => bulkAt c bytes (off + 128 * j) q) q

/-- The first `k` pairs from offset `off` (R200 step 4). -/
def pairRun (c : Params) (bytes : List Byte) (off k : Nat) (q : V128 × V128) : V128 × V128 :=
  (List.range k).foldl (fun q j => pairAt c bytes (off + 32 * j) q) q

/-- `BlockPath(D, n, s)` (R200), with `n` the length of the buffer. -/
def blockPath (c : Params) (bytes : List Byte) (seed : W64) : W64 × W64 :=
  let n := bytes.length
  let nblk := n / 16
  let xy0 := fhInit c seed (BitVec.ofNat 64 n)
  let odd := nblk % 2
  let xy1 := if odd = 1 then fhOdd c xy0.1 xy0.2 (leAt 128 bytes 16 0) else xy0
  let off := 16 * odd
  let even := nblk - odd
  let xys := bulkRun c bytes off (even / 8) (xy1.1, xy1.2, xy1.2)
  let xy2 := pairRun c bytes (off + 128 * (even / 8)) (even % 8 / 2) (xys.1, xys.2.1)
  fhComb c xy2.1 xy2.2

/-- `FastHash64(D, n, s)`, with `n` the length of the buffer (R180). -/
def fastHash64 (c : Params) (bytes : List Byte) (seed : W64) : W64 :=
  let n := bytes.length
  let ab :=
    if 32 < n then
      let ab := blockPath c bytes seed
      scalarTail c bytes (n - n % 16) (n % 16) ab.1 ab.2
    else scalarTail c bytes 0 n seed (BitVec.ofNat 64 n)
  finFh c ab.1 ab.2

end Sys2Proof.Machine
end

