-- ==== Sys2Proof/Machine/Script.lean ====
section
/-!
DEFINITION. The script notation for host steps and its pseudo-instructions (30_encoding.md R116, R117). A script is run by a
host that acts on what it reads: its turns and those of the rest of the world come in any order (10_state.md R30). Log entry
27.
-/

namespace Sys2Proof.Machine

/-- The offset of a register's first (for `reserved`, first reserved) address (R31, R39). -/
def offsetOf : Register → BitVec 8
  | .cmd => 0x00
  | .status => 0x08
  | .ctrl => 0x10
  | .data => 0x18
  | .len => 0x20
  | .seed => 0x28
  | .result => 0x30
  | .reserved => 0x38

/-- A name that a script gives to a value it reads (R116). -/
abbrev ValueName := Nat

/-- What a host does with one line of a script, its pseudo-instructions expanded (R116, R117). -/
inductive Line where
  /-- `WR reg, value`. -/
  | wr (r : Register) (v : W64)
  /-- `RD reg -> name`. -/
  | rd (r : Register) (name : ValueName)
  /-- `WAIT -> name`: `RD STATUS -> name`, again and again until bit 0 of the value is 0. -/
  | wait (name : ValueName)
  /-- The script is in error if a bit of a value is 1. -/
  | errorIf (name : ValueName) (bit : Nat)
  deriving DecidableEq, Repr

/-- A host in the middle of a script. -/
structure Script where
  /-- The lines still to come. -/
  lines : List Line
  /-- The values read so far under their names, the last one first. -/
  values : List (ValueName × W64)
  /-- The script is in error (R117, `CALL`). Once it is, it stays so: DESIGN CHOICE, log entry 28. -/
  inError : Bool
  deriving DecidableEq, Repr

/-- A script at its first line. -/
def startScript (lines : List Line) : Script := { lines := lines, values := [], inError := false }

/-- The value last read under a name. -/
def scriptValue (p : Script) (name : ValueName) : Option W64 := (p.values.find? fun q => q.1 == name).map fun q => q.2

/-- The host step of a line (R116); a test of a value is none. -/
def lineEvent : Line → Option Event
  | .wr r v => some (.write (offsetOf r) 8 v)
  | .rd r _ => some (.read (offsetOf r) 8)
  | .wait _ => some (.read (offsetOf .status) 8)
  | .errorIf _ _ => none

/-- The script after its first line `l`, with `rest` behind it, and a host step that returned `v`. `WAIT` stays where it is
while `BUSY`, bit 0 of the value, is 1 (R117). What a script does once it is in error the spec leaves open: it goes on with
the lines that follow, and a test of a name that holds no value finds no error. DESIGN CHOICE, log entry 28. -/
def afterLine (p : Script) (l : Line) (rest : List Line) (v : W64) : Script :=
  match l with
  | .wr _ _ => { p with lines := rest }
  | .rd _ name => { p with lines := rest, values := (name, v) :: p.values }
  | .wait name => { p with lines := if v.getLsbD 0 then l :: rest else rest, values := (name, v) :: p.values }
  | .errorIf name bit =>
    { p with lines := rest, inError := p.inError || ((scriptValue p name).map fun w => w.getLsbD bit).getD false }

/-- The host's turn: one host step of the script's first line, or a look at a value. A finished script does nothing. -/
def hostTurn (p : Script) (s : State) : Host.Outcome (Script × State) Fault Refusal :=
  match p.lines with
  | [] => .next (p, s)
  | l :: rest =>
    match lineEvent l with
    | none => .next (afterLine p l rest 0, s)
    | some e =>
      match takeEvent e s with
      | .next t => .next (afterLine p l rest t.rdata, t)
      | .fault f => .fault f
      | .refused r => .refused r

/-- Whose turn it is: the script's host, or the rest of the world, the engine included. -/
inductive Turn where
  | host
  | world (e : Event)
  deriving DecidableEq, Repr

/-- One turn of a script and the machine. -/
def takeTurn (x : Turn) (p : Script) (s : State) : Host.Outcome (Script × State) Fault Refusal :=
  match x with
  | .host => hostTurn p s
  | .world e =>
    match takeEvent e s with
    | .next t => .next (p, t)
    | .fault f => .fault f
    | .refused r => .refused r

/-- A run of a script under a schedule of turns. `WAIT` ends only under a schedule that lets the engine finish (R117, R320). -/
def runTurns : List Turn → Script → State → Host.Outcome (Script × State) Fault Refusal
  | [], p, s => .next (p, s)
  | x :: xs, p, s =>
    match takeTurn x p s with
    | .next q => runTurns xs q.1 q.2
    | .fault f => .fault f
    | .refused r => .refused r

/-- A mnemonic: the write of its word to `CMD` (R116). -/
def commandLine (i : Instr) : Line := .wr .cmd (encode i)

/-- `HASH op, data, len, seed` (R117). -/
def hashLines (i : Instr) (data len seed : W64) : List Line :=
  [.wr .data data, .wr .len len, .wr .seed seed, commandLine i]

/-- `FIN op, a`, for `FIN32` and `FIN64` (R117). -/
def finLines (i : Instr) (a : W64) : List Line := [.wr .seed a, commandLine i]

/-- `FIN FINFH, a, b` (R117). -/
def finfhLines (a b : W64) : List Line := [.wr .seed a, .wr .len b, commandLine .finfh]

/-- `ACK` (R117). -/
def ackLines : List Line := [.wr .status 0xE]

/-- `CALL op, data, len, seed -> r`, with the value of its `WAIT` under the name `s` (R117). -/
def callLines (i : Instr) (data len seed : W64) (s r : ValueName) : List Line :=
  hashLines i data len seed ++ [.wait s, .rd .result r, .errorIf s 2]

end Sys2Proof.Machine
end

