-- ==== Sys2Proof/Safety.lean ====
section
/-!
DEFINITION. The terms in which claims speak of a run: what a host must provide for a command (60_exceptions.md R275), the
bytes a command has still to read (10_state.md R43), and the invariants of the machine (R33, R42, R43, R58).
-/

namespace Sys2Proof.Machine

/-- The `bytes.length` bytes at `a` are readable, are `bytes`, and are bytes of a true buffer: the caller's contract of
R275. -/
def State.bufferAt (s : State) (a : Addr) (bytes : List Byte) : Prop :=
  memRead s a bytes.length = .value bytes ∧ inTrueBuffer s.buffers a.toNat bytes.length = true

/-- The command hashes the buffer at `DATA` (R31, R80). -/
def readsBuffer : Instr → Bool
  | .mix32 | .mix64a | .fh64 => true
  | .fin32 | .fin64 | .finfh => false

/-- The engine is idle, reset is not asserted and no event waits: the next steps are the engine's. -/
def State.quiet (s : State) : Prop := s.status.busy = false ∧ s.rst = false ∧ s.inbox = []

/-- The caller's contract of a memory command, as far as a broken one is refused: the buffer does not wrap (R89) and meets no
memory whose reads have side effects (R87). -/
def State.keepsContract (s : State) : Prop :=
  s.data.toNat + s.len.toNat ≤ 2 ^ 64 ∧ ∀ r ∈ s.sideEffectRanges, r.meets s.data.toNat s.len.toNat = false

/-- `STATUS` right after a command completed normally (R57); `OVR` is what it was. -/
def Status.completed (ovr : Bool) : Status := { busy := false, done := true, err := false, ovr := ovr, ecode := .none }

/-- `STATUS` right after a command was accepted (R112). -/
def Status.running (ovr : Bool) : Status := { busy := true, done := false, err := false, ovr := ovr, ecode := .none }

/-- `STATUS` right after an error (R277). -/
def Status.failed (c : ECode) (ovr : Bool) : Status := { busy := false, done := false, err := true, ovr := ovr, ecode := c }

/-- The bytes of the buffer the running command has not read yet, `LEN_0 - (PTR - DATA_0)` (R43, R44, R45). -/
def State.bytesLeft (s : State) : Nat :=
  match s.phase with
  | .m32Body | .m64Body | .fhInit | .fhTail => s.rem.toNat
  | .fhOdd | .fhBlk => s.rem.toNat + 16 * s.nblk.toNat
  | _ => 0

/-- The bytes the engine's next step reads, all of them from `PTR` on (R142, R143, R162, R163, R182, R202, R203). -/
def State.stepReads (s : State) : Nat :=
  match s.phase with
  | .m32Body => min 4 s.rem.toNat
  | .m64Body => min 8 s.rem.toNat
  | .fhOdd => if s.nblk.toNat % 2 = 1 then 16 else 0
  | .fhBlk => if 8 ≤ s.nblk.toNat then 128 else if 2 ≤ s.nblk.toNat then 32 else 0
  | .fhTail => s.rem.toNat
  | _ => 0

/-- The phases of the finalize-only commands (R251). -/
def Phase.finalizeOnly : Phase → Bool
  | .fuOnly32 | .fuOnly64 | .fuOnlyFh => true
  | _ => false

/-- The engine steps a command takes after its accepting step, on a buffer of `n` bytes (R319). -/
def stepCount (i : Instr) (n : Nat) : Nat :=
  match i with
  | .mix32 => n / 4 + 2
  | .mix64a => n / 8 + 2
  | .fh64 =>
    if n ≤ 32 then 2
    else
      let q := n / 16
      let even := q - q % 2
      2 + even / 8 + even % 8 / 2 + 1 + 2
  | .fin32 | .fin64 | .finfh => 1

/-- What a hash command computes from its buffer and `SEED` (R140, R160, R180); the finalize-only commands hash nothing. -/
def hashOf (i : Instr) (c : Params) (bytes : List Byte) (seed : W64) : W64 :=
  match i with
  | .mix32 => (mix32Hash bytes (seed.setWidth 32)).setWidth 64
  | .mix64a => mix64aHash bytes seed
  | .fh64 => fastHash64 c bytes seed
  | .fin32 | .fin64 | .finfh => 0

/-- The flags agree with each other and with the phase (R33, R42), and an asserted reset holds the reset state (R310). -/
structure StatusInv (s : State) : Prop where
  busy_iff : s.status.busy = true ↔ s.phase ≠ .idle
  not_both : ¬(s.status.done = true ∧ s.status.err = true)
  busy_clear : s.status.busy = true → s.status.done = false ∧ s.status.err = false
  ecode_iff : s.status.err = true ↔ s.status.ecode ≠ .none
  reset_held : s.rst = true →
    s.status = .reset ∧ s.ie = false ∧ s.data = 0 ∧ s.len = 0 ∧ s.seed = 0 ∧ s.result = 0

/-- The cursor and the counters of a running command (R43 to R45, R84, R184, R202): the command keeps the caller's
contract or is recorded as having strayed from its true buffer (R275), `PTR` is where the bytes still to read begin, and the
counts have the bounds the phases rely on. -/
structure CursorInv (s : State) : Prop where
  no_wrap : s.status.busy = true → s.bufBase.toNat + s.bufLen.toNat ≤ 2 ^ 64
  no_side_effect : s.status.busy = true →
    s.sideEffectRanges.any (fun r => r.meets s.bufBase.toNat s.bufLen.toNat) = false
  true_buffer : s.status.busy = true → s.strayed = false →
    inTrueBuffer s.buffers s.bufBase.toNat s.bufLen.toNat = true
  left_le : s.status.busy = true → s.bytesLeft ≤ s.bufLen.toNat
  cursor : s.status.busy = true → s.phase.finalizeOnly = false →
    s.ptr = s.bufBase + BitVec.ofNat 64 (s.bufLen.toNat - s.bytesLeft)
  int32_len : (s.phase = .m32Body ∨ s.phase = .m64Body) → s.bufLen.toNat < 2 ^ 31
  init_long : s.phase = .fhInit → 32 < s.rem.toNat
  odd_blocks : s.phase = .fhOdd → 2 ≤ s.nblk.toNat ∧ s.rem.toNat < 16
  even_blocks : s.phase = .fhBlk → s.nblk.toNat % 2 = 0 ∧ s.rem.toNat < 16
  tail_short : s.phase = .fhTail → s.rem.toNat ≤ 32

end Sys2Proof.Machine
end

