-- ==== Sys2Proof/Certificates/Slice0/Obligations.lean ====
section
/-!
DEFINITION. The statements about the machine that are to be proved. Each docstring names the rule of spec/ it rests on.
-/

open Sys2Proof Sys2Proof.Machine

/-! ### The command word -/

/-- R111: "A command word selects a command exactly when the whole 64-bit word equals the value in the `word` column".
Decode and encode agree in both directions, every command is well-formed, and the words are the table's. -/
def Obligations.DecodeAndEncodeAgree : Prop :=
  (∀ i : Instr, i.wellFormed = true ∧ ∀ w : W64, decode w = .ok i ↔ w = encode i) ∧
    encode .mix32 = 0x0000000000000001 ∧ encode .mix64a = 0x0000000000000002 ∧ encode .fh64 = 0x0000000000000003 ∧
    encode .fin32 = 0x0000000000000009 ∧ encode .fin64 = 0x000000000000000A ∧ encode .finfh = 0x000000000000000B

/-- The words the decoder turns away are the words R112 calls illegal, each by the name of the first of R112's tests that
it fails. -/
def Obligations.IllegalWordsByTheirBits : Prop :=
  ∀ w : W64,
    (decode w = .error .reservedHighBits ↔ w.extractLsb' 4 60 ≠ 0) ∧
    (decode w = .error .reservedBit2 ↔ w.extractLsb' 4 60 = 0 ∧ w.getLsbD 2 = true) ∧
    (decode w = .error .noAlgorithm ↔
      w.extractLsb' 4 60 = 0 ∧ w.getLsbD 2 = false ∧ w.extractLsb' 0 2 = 0)

/-- The fields of a word are its bits 1:0, 2, 3 and 63:4, and no bit is dropped (R110). -/
def Obligations.FieldsCoverTheWord : Prop :=
  (∀ w : W64, wordOf (fieldsOf w) = w) ∧ (∀ f : CommandFields, fieldsOf (wordOf f) = f) ∧
    ∀ w : W64, (fieldsOf w).alg.toNat = w.toNat % 4 ∧ (fieldsOf w).rsv2.toNat = w.toNat / 4 % 2 ∧
      (fieldsOf w).fo.toNat = w.toNat / 8 % 2 ∧ (fieldsOf w).rsvHi.toNat = w.toNat / 16

/-- The six words of the table decode to their commands, and the table's reading of them agrees (R111). -/
def Obligations.TableWordsDecode : Prop :=
  decodeTableWord 64 0x1 = some .mix32 ∧ decodeTableWord 64 0x2 = some .mix64a ∧ decodeTableWord 64 0x3 = some .fh64 ∧
    decodeTableWord 64 0x9 = some .fin32 ∧ decodeTableWord 64 0xA = some .fin64 ∧ decodeTableWord 64 0xB = some .finfh

/-- A step at a write of a word to `CMD` is the meaning of the command the word decodes to, with the write consumed; reset
is not asserted (R32, R112). The model's own convention (log entry 1): a word placed by `withFetchWord` is the next thing the
machine runs. -/
def Obligations.StepRunsTheDecodedCommand : Prop :=
  (∀ (s : State) (w : W64) (i : Instr) (rest : List Event), s.inbox = cmdWrite w :: rest → s.rst = false →
    decode w = .ok i → step s = exec i { s with inbox := rest }) ∧
  ∀ (s : State) (i : Instr), step (s.withFetchWord 64 (encode i).toNat) = exec i { s with rst := false }

/-! ### The issue step -/

/-- R274: a `CMD` write that meets a busy engine sets `OVR` and does nothing else, whatever the word is, and so does every
command's own meaning; `OVR` rises in no other way, and falls only by a `STATUS` write of its bit or by reset. -/
def Obligations.OverrunDropsTheWord : Prop :=
  (∀ s : State, s.status.busy = true →
    (∀ i : Instr, exec i s = .next { s with status := { s.status with ovr := true } }) ∧
    (∀ (w : W64) (rest : List Event), s.inbox = cmdWrite w :: rest → s.rst = false →
      step s = .next { s with inbox := rest, status := { s.status with ovr := true } })) ∧
  ∀ s t : State, step s = .next t →
    (s.status.ovr = false → t.status.ovr = true →
      s.status.busy = true ∧ ∃ (w : W64) (rest : List Event), s.inbox = cmdWrite w :: rest) ∧
    (s.status.ovr = true → t.status.ovr = false →
      (∃ (v : W64) (rest : List Event), s.inbox = .write 0x08 8 v :: rest ∧ v.getLsbD 3 = true) ∨ t.rst = true)

/-- R114, R271: a word that is none of the six, written to an idle engine, records `IllegalCommand` and changes nothing
else. -/
def Obligations.IllegalWordIsReported : Prop :=
  ∀ (s : State) (w : W64) (rest : List Event), s.inbox = cmdWrite w :: rest → s.rst = false → s.status.busy = false →
    s.phase = .idle → (∀ i : Instr, w ≠ encode i) →
    step s = .next { s with inbox := rest, status := Status.failed .illegalCommand s.status.ovr }

/-- R272: an idle engine that is given `MIX32` or `MIX64A` with `LEN >= 2^31` records `BadLength` and changes nothing else;
no other command records it, whatever `LEN` holds. -/
def Obligations.OverlongInt32LengthIsReported : Prop :=
  ∀ s : State, s.status.busy = false →
    (s.phase = .idle → 2 ^ 31 ≤ s.len.toNat →
      exec .mix32 s = .next { s with status := Status.failed .badLength s.status.ovr } ∧
      exec .mix64a s = .next { s with status := Status.failed .badLength s.status.ovr }) ∧
    ∀ (i : Instr) (t : State), i ≠ .mix32 → i ≠ .mix64a → exec i s = .next t → t.status.ecode = .none

/-- R141: the accepting step of `MIX32`. The last four fields are the model's own, and setting them is the
model's choice (log entries 8, 12). -/
def Obligations.Mix32IsAccepted : Prop :=
  ∀ s : State, s.status.busy = false → s.len.toNat < 2 ^ 31 → s.keepsContract →
    exec .mix32 s = .next { s with
      status := Status.running s.status.ovr
      h32 := s.seed.setWidth 32 ^^^ (s.len.setWidth 32 * 0xc6a4a793)
      ptr := s.data, rem := s.len, phase := .m32Body, raced := false, bufBase := s.data, bufLen := s.len
      strayed := !inTrueBuffer s.buffers s.data.toNat s.len.toNat }

/-- R161: the accepting step of `MIX64A`. The last four fields are the model's own, and setting them is the
model's choice (log entries 8, 12). -/
def Obligations.Mix64aIsAccepted : Prop :=
  ∀ s : State, s.status.busy = false → s.len.toNat < 2 ^ 31 → s.keepsContract →
    exec .mix64a s = .next { s with
      status := Status.running s.status.ovr
      h64 := s.seed ^^^ (s.len * 0xc6a4a7935bd1e995)
      ptr := s.data, rem := s.len, phase := .m64Body, raced := false, bufBase := s.data, bufLen := s.len
      strayed := !inTrueBuffer s.buffers s.data.toNat s.len.toNat }

/-- R181: the accepting step of `FH64`, with any length. The last four fields are the model's own, and setting them is the
model's choice (log entries 8, 12). -/
def Obligations.Fh64IsAccepted : Prop :=
  ∀ s : State, s.status.busy = false → s.keepsContract →
    exec .fh64 s = .next { s with
      status := Status.running s.status.ovr
      a := s.seed, b := s.len, ptr := s.data, rem := s.len
      phase := if s.len.toNat ≤ 32 then .fhTail else .fhInit
      raced := false, bufBase := s.data, bufLen := s.len
      strayed := !inTrueBuffer s.buffers s.data.toNat s.len.toNat }

/-- R251 to R254: `FIN32`, `FIN64` and `FINFH` are accepted whatever `DATA` and `LEN` hold, and their one engine step
delivers the finalizer of `SEED` (and `LEN`); no memory is read. That the internal registers are kept after completion is the
model's choice (log entry 5), and the last four fields are the model's own, set by its choice (log entries 8, 12). -/
def Obligations.FinalizeCommandsDeliver : Prop :=
  ∀ s : State, s.status.busy = false → s.rst = false →
    (∃ t : State, exec .fin32 s = .next t ∧ t.status = Status.running s.status.ovr ∧
      engineTurn t = { s with
        h32 := s.seed.setWidth 32, result := (fin32 (s.seed.setWidth 32)).setWidth 64, phase := .idle
        status := Status.completed s.status.ovr, raced := false, strayed := false, bufBase := 0, bufLen := 0 }) ∧
    (∃ t : State, exec .fin64 s = .next t ∧ t.status = Status.running s.status.ovr ∧
      engineTurn t = { s with
        h64 := s.seed, result := fin64 s.seed, phase := .idle
        status := Status.completed s.status.ovr, raced := false, strayed := false, bufBase := 0, bufLen := 0 }) ∧
    (∃ t : State, exec .finfh s = .next t ∧ t.status = Status.running s.status.ovr ∧
      engineTurn t = { s with
        a := s.seed, b := s.len, result := finFh s.cfg s.seed s.len, phase := .idle
        status := Status.completed s.status.ovr, raced := false, strayed := false, bufBase := 0, bufLen := 0 })

/-- What a model is told to refuse (R87, R89): a hash command of an idle engine whose buffer passes the top of the address
space, or meets memory with read side effects. -/
def Obligations.BrokenContractIsRefused : Prop :=
  ∀ s : State, s.status.busy = false →
    (2 ^ 64 < s.data.toNat + s.len.toNat →
      exec .fh64 s = .refused .bufferWraps ∧
      (s.len.toNat < 2 ^ 31 → exec .mix32 s = .refused .bufferWraps ∧ exec .mix64a s = .refused .bufferWraps)) ∧
    (s.data.toNat + s.len.toNat ≤ 2 ^ 64 →
      (∃ r ∈ s.sideEffectRanges, r.meets s.data.toNat s.len.toNat = true) →
      exec .fh64 s = .refused .sideEffectBuffer ∧
      (s.len.toNat < 2 ^ 31 →
        exec .mix32 s = .refused .sideEffectBuffer ∧ exec .mix64a s = .refused .sideEffectBuffer))

/-- The frame of every command's issue step: what it may change is `STATUS`, `PH` and the internal registers its init rule
names; memory is not touched (R31, R88, R112, R141, R161, R181, R251). -/
def Obligations.IssueFrame : Prop :=
  ∀ (i : Instr) (s t : State), exec i s = .next t →
    (t.data = s.data ∧ t.len = s.len ∧ t.seed = s.seed ∧ t.result = s.result ∧ t.ie = s.ie) ∧
    (t.nblk = s.nblk ∧ t.x = s.x ∧ t.y = s.y ∧ t.salt = s.salt) ∧
    (i ≠ .mix32 → i ≠ .fin32 → t.h32 = s.h32) ∧ (i ≠ .mix64a → i ≠ .fin64 → t.h64 = s.h64) ∧
    (i ≠ .fh64 → i ≠ .finfh → t.a = s.a ∧ t.b = s.b) ∧
    (i ≠ .mix32 → i ≠ .mix64a → i ≠ .fh64 → t.ptr = s.ptr ∧ t.rem = s.rem) ∧
    (s.status.busy = false → t.status.ovr = s.status.ovr) ∧
    (t.rst = s.rst ∧ t.cfg = s.cfg ∧ t.plat = s.plat ∧ t.buffers = s.buffers ∧ t.inbox = s.inbox ∧ t.rdata = s.rdata ∧
      t.free = s.free) ∧
    t.mem = s.mem ∧ ∀ a : Addr, byteAnswer t a = byteAnswer s a

/-! ### The engine steps -/

/-- R142: the word step of `MIX32`. -/
def Obligations.Mix32WordStep : Prop :=
  ∀ (s : State) (k : W32), s.status.busy = true → s.rst = false → s.phase = .m32Body → 4 ≤ s.rem.toNat →
    readWord s 32 s.ptr 4 = .value k →
    engineTurn s = { s with
      h32 := ((s.h32 + k) * 0xc6a4a793) ^^^ (((s.h32 + k) * 0xc6a4a793) >>> 16), ptr := s.ptr + 4, rem := s.rem - 4 }

/-- R143: the tail step of `MIX32` on 0 to 3 bytes: all added, then one multiply and shift, and neither for no byte. -/
def Obligations.Mix32TailStep : Prop :=
  ∀ (s : State) (bytes : List Byte), s.status.busy = true → s.rst = false → s.phase = .m32Body → s.rem.toNat < 4 →
    memRead s s.ptr s.rem.toNat = .value bytes →
    engineTurn s = { s with
      h32 :=
        match bytes with
        | [v0] => mxs32 (s.h32 + v0.setWidth 32) 16
        | [v0, v1] => mxs32 (s.h32 + (v1.setWidth 32 <<< 8) + v0.setWidth 32) 16
        | [v0, v1, v2] => mxs32 (s.h32 + (v2.setWidth 32 <<< 16) + (v1.setWidth 32 <<< 8) + v0.setWidth 32) 16
        | _ => s.h32
      ptr := s.ptr + s.rem, rem := 0, phase := .m32Fin }

/-- R162: the word step of `MIX64A`. -/
def Obligations.Mix64aWordStep : Prop :=
  ∀ (s : State) (k : W64), s.status.busy = true → s.rst = false → s.phase = .m64Body → 8 ≤ s.rem.toNat →
    readWord s 64 s.ptr 8 = .value k →
    let k1 := k * 0xc6a4a7935bd1e995
    let k2 := k1 ^^^ (k1 >>> 47)
    let k3 := k2 * 0xc6a4a7935bd1e995
    engineTurn s = { s with h64 := (s.h64 ^^^ k3) * 0xc6a4a7935bd1e995, ptr := s.ptr + 8, rem := s.rem - 8 }

/-- R163: the tail step of `MIX64A` on 0 to 7 bytes: each byte folded by exclusive or, the one of the highest offset first
(`foldr`), then one multiply, and none for no byte. -/
def Obligations.Mix64aTailStep : Prop :=
  ∀ (s : State) (bytes : List Byte), s.status.busy = true → s.rst = false → s.phase = .m64Body → s.rem.toNat < 8 →
    memRead s s.ptr s.rem.toNat = .value bytes →
    engineTurn s = { s with
      h64 :=
        if bytes = [] then s.h64
        else bytes.zipIdx.foldr (fun (q : Byte × Nat) h => h ^^^ (q.1.setWidth 64 <<< (8 * q.2))) s.h64 * 0xc6a4a7935bd1e995
      ptr := s.ptr + s.rem, rem := 0, phase := .m64Fin }

/-- R57, R144, R164, R186: the finishing steps of the three hash commands, on the bytes of a true buffer that no other
agent changed, deliver the finalizer of their accumulators, read no memory and end the command; the rotate is to the right
where `ROT_DIR` says so. That the internal registers are kept after completion, with the finalized value in `H32` or `H64`, is
the model's choice (log entry 5), and so is what counts as such bytes (log entries 8, 12). -/
def Obligations.FinishingSteps : Prop :=
  ∀ s : State, s.status.busy = true → s.rst = false → s.raced = false → s.strayed = false →
    (s.phase = .m32Fin → engineTurn s = { s with
      h32 := fin32 s.h32, result := (fin32 s.h32).setWidth 64, phase := .idle
      status := { s.status with done := true, busy := false } }) ∧
    (s.phase = .m64Fin → engineTurn s = { s with
      h64 := fin64 s.h64, result := fin64 s.h64, phase := .idle
      status := { s.status with done := true, busy := false } }) ∧
    (s.phase = .fhFin → engineTurn s = { s with
      result := mux (rotate s.cfg (s.a + s.b) 17) s.cfg.p4 + mix s.cfg (s.a ^^^ s.b) s.cfg.p0, phase := .idle
      status := { s.status with done := true, busy := false } }) ∧
    (s.cfg.rotDir = .right → ∀ (v : W64) (n : Nat), rotate s.cfg v n = (v >>> n) ||| (v <<< (64 - n)))

/-- R201: the `FH_INIT` step. -/
def Obligations.FhInitStep : Prop :=
  ∀ s : State, s.status.busy = true → s.rst = false → s.phase = .fhInit →
    engineTurn s = { s with
      x := (fhInit s.cfg s.a s.b).1, y := (fhInit s.cfg s.a s.b).2
      nblk := BitVec.ofNat 64 (s.rem.toNat / 16), rem := BitVec.ofNat 64 (s.rem.toNat % 16), phase := .fhOdd }

/-- R202: the `FH_ODD` step, with an odd and with an even block count. -/
def Obligations.FhOddStep : Prop :=
  ∀ s : State, s.status.busy = true → s.rst = false → s.phase = .fhOdd →
    (s.nblk.toNat % 2 = 1 → ∀ v : V128, readWord s 128 s.ptr 16 = .value v →
      engineTurn s = { s with
        x := (fhOdd s.cfg s.x s.y v).1, y := (fhOdd s.cfg s.x s.y v).2, salt := (fhOdd s.cfg s.x s.y v).2
        ptr := s.ptr + 16, nblk := s.nblk - 1, phase := .fhBlk }) ∧
    (s.nblk.toNat % 2 = 0 → engineTurn s = { s with salt := s.y, phase := .fhBlk })

/-- R203: the `FH_BLK` step: a bulk iteration, a pair, or the combine. The bytes are those from `PTR` on. -/
def Obligations.FhBlkStep : Prop :=
  ∀ s : State, s.status.busy = true → s.rst = false → s.phase = .fhBlk →
    (8 ≤ s.nblk.toNat → ∀ bytes : List Byte, memRead s s.ptr 128 = .value bytes →
      let q := fhBulk s.cfg s.x s.y s.salt (leAt 128 bytes 16 0) (leAt 128 bytes 16 16) (leAt 128 bytes 16 32)
        (leAt 128 bytes 16 48) (leAt 128 bytes 16 64) (leAt 128 bytes 16 80) (leAt 128 bytes 16 96)
        (leAt 128 bytes 16 112)
      engineTurn s = { s with x := q.1, y := q.2.1, salt := q.2.2, ptr := s.ptr + 128, nblk := s.nblk - 8 }) ∧
    (2 ≤ s.nblk.toNat → s.nblk.toNat < 8 → ∀ bytes : List Byte, memRead s s.ptr 32 = .value bytes →
      let q := fhPair s.cfg s.x s.y (leAt 128 bytes 16 0) (leAt 128 bytes 16 16)
      engineTurn s = { s with x := q.1, y := q.2, ptr := s.ptr + 32, nblk := s.nblk - 2 }) ∧
    (s.nblk = 0 → engineTurn s = { s with
      a := (fhComb s.cfg s.x s.y).1, b := (fhComb s.cfg s.x s.y).2, phase := .fhTail })

/-- R182, R183: the `FH_TAIL` step on `r` bytes, `r` from 0 to 32: which words are folded into which accumulator with which
prime. -/
def Obligations.FhTailStep : Prop :=
  ∀ (s : State) (bytes : List Byte), s.status.busy = true → s.rst = false → s.phase = .fhTail → s.rem.toNat ≤ 32 →
    memRead s s.ptr s.rem.toNat = .value bytes →
    let r := s.rem.toNat
    let word := fun i => leAt 64 bytes 8 i
    engineTurn s = { s with
      a :=
        if r = 0 then s.a
        else if r ≤ 8 then s.a + mux (leAt 64 bytes r 0) s.cfg.p1
        else if r ≤ 16 then s.a + mux (leAt 64 bytes (r - 8) 8) s.cfg.p1
        else if r ≤ 24 then s.a + mux (word 0) s.cfg.p3 + mux (leAt 64 bytes (r - 16) 16) s.cfg.p1
        else s.a + mux (word 8) s.cfg.p3 + mux (leAt 64 bytes (r - 24) 24) s.cfg.p1
      b :=
        if r ≤ 8 then s.b
        else if r ≤ 16 then s.b + mux (word 0) s.cfg.p2
        else if r ≤ 24 then s.b + mux (word 8) s.cfg.p2
        else s.b + mux (word 0) s.cfg.p4 + mux (word 16) s.cfg.p2
      ptr := s.ptr + s.rem, rem := 0, phase := .fhFin }

/-- R204 to R208: the block-path functions at their defaults. -/
def Obligations.DefaultBlockFunctions : Prop :=
  ∀ c : Params,
    (c.initChoice = .specDefault → ∀ seed len : W64,
      fhInit c seed len = (lanes seed len, enc c (lanes seed len) (lanes c.p0 c.p1))) ∧
    (c.oddChoice = .specDefault → ∀ x y v : V128, fhOdd c x y v = (add2 x v, enc c (add2 x v) y)) ∧
    (c.bulkChoice = .specDefault → ∀ x y salt v0 v1 v2 v3 v4 v5 v6 v7 : V128,
      fhBulk c x y salt v0 v1 v2 v3 v4 v5 v6 v7 =
        (add2 y x,
          enc c x (dec c (dec c (dec c (dec c (dec c (dec c (dec c (enc c v0 salt) v1) v2) v3) v4) v5) v6) v7),
          add2 salt c.saltInc)) ∧
    (c.pairChoice = .specDefault → ∀ x y v0 v1 : V128,
      fhPair c x y v0 v1 = (dec c x (add2 y v0), dec c y (sub2 x v1))) ∧
    (c.combChoice = .specDefault → ∀ x y : V128,
      fhComb c x y = (loLane (add2 (dec c x (enc c y x)) y), hiLane (add2 (dec c x (enc c y x)) y)))

/-- R88, R56, R30: the engine never writes memory; all it writes is its internal state, `RESULT` and `STATUS` (and there not
`OVR`); and it has no step while it is idle, while `BUSY = 0`, and while reset is asserted. -/
def Obligations.EngineFrame : Prop :=
  ∀ s : State,
    ((engineTurn s).data = s.data ∧ (engineTurn s).len = s.len ∧ (engineTurn s).seed = s.seed ∧
      (engineTurn s).ie = s.ie ∧ (engineTurn s).status.ovr = s.status.ovr ∧ (engineTurn s).rst = s.rst ∧
      (engineTurn s).cfg = s.cfg ∧ (engineTurn s).plat = s.plat ∧ (engineTurn s).inbox = s.inbox ∧
      (engineTurn s).rdata = s.rdata ∧ (engineTurn s).bufBase = s.bufBase ∧ (engineTurn s).bufLen = s.bufLen ∧
      (engineTurn s).raced = s.raced ∧ (engineTurn s).strayed = s.strayed ∧ (engineTurn s).buffers = s.buffers ∧
      (engineTurn s).mem = s.mem ∧
      ∀ a : Addr, byteAnswer (engineTurn s) a = byteAnswer s a) ∧
    (s.status.busy = false ∨ s.phase = .idle ∨ s.rst = true → engineTurn s = s)

/-- R38: `RESULT` is written only by the step that completes a command, and by reset. -/
def Obligations.ResultChangesOnlyAtCompletion : Prop :=
  ∀ s t : State, step s = .next t → t.result ≠ s.result →
    (s.status.busy = true ∧ t.status.busy = false ∧ t.status.done = true ∧ t.phase = .idle) ∨
    (t.rst = true ∧ t.result = 0)

/-- R273 (with R81): a bus error on any byte the step reads, the memory answering for all of them, ends the command:
`BUSY` 0, `ERR` 1, `ECODE` 3, `PH` `IDLE`, and `RESULT`, `DONE`, `OVR`, `CTRL` and the operand registers unchanged. -/
def Obligations.BusErrorEndsTheCommand : Prop :=
  ∀ s : State, s.status.busy = true → s.rst = false → (s.phase = .fhTail → s.rem.toNat ≤ 32) →
    (∀ i < s.stepReads, byteAnswer s (s.ptr + BitVec.ofNat 64 i) ≠ .noAnswer) →
    (∃ i < s.stepReads, byteAnswer s (s.ptr + BitVec.ofNat 64 i) = .busError) →
    (engineTurn s).status = { s.status with busy := false, err := true, ecode := .busError } ∧
    (engineTurn s).phase = .idle ∧ (engineTurn s).result = s.result ∧ (engineTurn s).ie = s.ie ∧
    (engineTurn s).data = s.data ∧ (engineTurn s).len = s.len ∧ (engineTurn s).seed = s.seed

/-- U10, R320: where the memory does not answer for some byte the step reads, and answers with no bus error, the engine does
not step. -/
def Obligations.SilentMemoryHoldsTheEngine : Prop :=
  ∀ s : State, (s.phase = .fhTail → s.rem.toNat ≤ 32) →
    (∀ i < s.stepReads, byteAnswer s (s.ptr + BitVec.ofNat 64 i) ≠ .busError) →
    (∃ i < s.stepReads, byteAnswer s (s.ptr + BitVec.ofNat 64 i) = .noAnswer) → engineTurn s = s

/-- R84: the engine reads no byte outside the buffer of the running command: whatever the memory answers at other
addresses, its step is the same. -/
def Obligations.NoOverRead : Prop :=
  ∀ (s : State) (m : Memory) (p : Platform), CursorInv s →
    (∀ a : Addr, s.bufBase.toNat ≤ a.toNat → a.toNat < s.bufBase.toNat + s.bufLen.toNat →
      byteAnswer { s with mem := m, plat := p } a = byteAnswer s a) →
    engineTurn { s with mem := m, plat := p } = { engineTurn s with mem := m, plat := p }

/-! ### What the commands compute -/

/-- R140, R145: `MIX32` of a readable buffer, with no event in between, is accepted and after `floor(LEN / 4) + 2` engine
steps has delivered `Mix32(D, LEN, SEED[31:0])`. -/
def Obligations.Mix32DeliversItsHash : Prop :=
  ∀ (s : State) (bytes : List Byte), s.quiet → s.len.toNat = bytes.length → bytes.length < 2 ^ 31 → s.keepsContract →
    s.bufferAt s.data bytes →
    ∃ t u : State, exec .mix32 s = .next t ∧ t.status = Status.running s.status.ovr ∧
      Sys2Proof.core.run (bytes.length / 4 + 2) t = .next u ∧
      u.result = (mix32Hash bytes (s.seed.setWidth 32)).setWidth 64 ∧ u.status = Status.completed s.status.ovr ∧
      u.phase = .idle ∧ u.data = s.data ∧ u.len = s.len ∧ u.seed = s.seed ∧ u.ie = s.ie ∧ u.mem = s.mem

/-- R160, R165: `MIX64A` of a readable buffer is accepted and after `floor(LEN / 8) + 2` engine steps has delivered
`Mix64A(D, LEN, SEED)`. -/
def Obligations.Mix64aDeliversItsHash : Prop :=
  ∀ (s : State) (bytes : List Byte), s.quiet → s.len.toNat = bytes.length → bytes.length < 2 ^ 31 → s.keepsContract →
    s.bufferAt s.data bytes →
    ∃ t u : State, exec .mix64a s = .next t ∧ t.status = Status.running s.status.ovr ∧
      Sys2Proof.core.run (bytes.length / 8 + 2) t = .next u ∧
      u.result = mix64aHash bytes s.seed ∧ u.status = Status.completed s.status.ovr ∧
      u.phase = .idle ∧ u.data = s.data ∧ u.len = s.len ∧ u.seed = s.seed ∧ u.ie = s.ie ∧ u.mem = s.mem

/-- R180, R187: `FH64` of a readable buffer of at most 32 bytes is accepted and after 2 engine steps has delivered
`FastHash64(D, LEN, SEED)`, for every value of the OPEN parameters. -/
def Obligations.ShortFh64DeliversItsHash : Prop :=
  ∀ (s : State) (bytes : List Byte), s.quiet → s.len.toNat = bytes.length → bytes.length ≤ 32 → s.keepsContract →
    s.bufferAt s.data bytes →
    ∃ t u : State, exec .fh64 s = .next t ∧ t.status = Status.running s.status.ovr ∧
      Sys2Proof.core.run 2 t = .next u ∧
      u.result = fastHash64 s.cfg bytes s.seed ∧ u.status = Status.completed s.status.ovr ∧
      u.phase = .idle ∧ u.data = s.data ∧ u.len = s.len ∧ u.seed = s.seed ∧ u.ie = s.ie ∧ u.mem = s.mem

/-- R180, R200, R222: `FH64` of a longer readable buffer is accepted and, after the engine steps R222 counts, has delivered
`FastHash64(D, LEN, SEED)`, for every value of the OPEN parameters and every choice of the block-path functions. -/
def Obligations.LongFh64DeliversItsHash : Prop :=
  ∀ (s : State) (bytes : List Byte), s.quiet → s.len.toNat = bytes.length → 32 < bytes.length → s.keepsContract →
    s.bufferAt s.data bytes →
    ∃ t u : State, exec .fh64 s = .next t ∧ t.status = Status.running s.status.ovr ∧
      Sys2Proof.core.run (stepCount .fh64 bytes.length) t = .next u ∧
      u.result = fastHash64 s.cfg bytes s.seed ∧ u.status = Status.completed s.status.ovr ∧
      u.phase = .idle ∧ u.data = s.data ∧ u.len = s.len ∧ u.seed = s.seed ∧ u.ie = s.ie ∧ u.mem = s.mem

/-- R117, R314, R316: the script `CALL` of a hash command, from an idle engine, under every schedule of the host's and the
engine's turns, goes on, is never in error, and, once it is finished, has read the hash of the buffer from `RESULT`, whatever
the operand registers and the flags held before; and the schedule that lets the command run finishes it. How scripts
run is the model's choice (log entry 27). -/
def Obligations.CallReadsTheHashBack : Prop :=
  ∀ (s : State) (i : Instr) (data seed : W64) (bytes : List Byte), readsBuffer i = true →
    s.status.busy = false → s.rst = false → bytes.length < 2 ^ 64 → (i ≠ .fh64 → bytes.length < 2 ^ 31) →
    { s with data := data, len := BitVec.ofNat 64 bytes.length }.keepsContract → s.bufferAt data bytes →
    let p := startScript (callLines i data (BitVec.ofNat 64 bytes.length) seed 0 1)
    (∀ turns : List Turn, (∀ x ∈ turns, x = .host ∨ x = .world .engine) →
      ∃ (q : Script) (u : State), runTurns turns p s = .next (q, u) ∧ q.inError = false ∧ u.mem = s.mem ∧
        (q.lines = [] → scriptValue q 1 = some (hashOf i s.cfg bytes seed) ∧ u.result = hashOf i s.cfg bytes seed ∧
          u.status = Status.completed s.status.ovr)) ∧
    ∃ (q : Script) (u : State),
      runTurns (List.replicate 4 .host ++ List.replicate (stepCount i bytes.length) (.world .engine) ++
        List.replicate 3 .host) p s = .next (q, u) ∧ q.lines = []

/-- R146, R166, R188, R252 to R254: the hash of the empty buffer is the finalizer of the seed. -/
def Obligations.EmptyBufferIsTheFinalizer : Prop :=
  (∀ seed : W32, mix32Hash [] seed = fin32 seed) ∧ (∀ seed : W64, mix64aHash [] seed = fin64 seed) ∧
    ∀ (c : Params) (seed : W64), fastHash64 c [] seed = finFh c seed 0

/-- R241 to R248: the functions of the finalize unit, written out with their shifts, products and folds; the two directions of
the rotate (R6). R255: the properties the spec derives of them, for every value of the parameters. -/
def Obligations.FinalizeUnitLaws : Prop :=
  ((∀ (h : W32) (n : Nat), mxs32 h n = (h * 0xc6a4a793) ^^^ ((h * 0xc6a4a793) >>> n)) ∧
    (∀ h : W32,
      let t1 := h * 0xc6a4a793
      let t2 := t1 ^^^ (t1 >>> 10)
      let t3 := t2 * 0xc6a4a793
      fin32 h = t3 ^^^ (t3 >>> 17)) ∧
    (∀ h : W64,
      let t1 := h ^^^ (h >>> 47)
      let t2 := t1 * 0xc6a4a7935bd1e995
      fin64 h = t2 ^^^ (t2 >>> 47)) ∧
    (∀ k : W64,
      let k1 := k * 0xc6a4a7935bd1e995
      let k2 := k1 ^^^ (k1 >>> 47)
      scr64 k = k2 * 0xc6a4a7935bd1e995) ∧
    (∀ v p : W64,
      (mux v p).toNat = (v.toNat * p.toNat / 2 ^ 64) ^^^ (v.toNat * p.toNat % 2 ^ 64)) ∧
    ∀ c : Params,
      (c.rotDir = .right → ∀ (v : W64) (n : Nat), rotate c v n = (v >>> n) ||| (v <<< (64 - n))) ∧
      (c.rotDir = .left → ∀ (v : W64) (n : Nat), rotate c v n = (v <<< n) ||| (v >>> (64 - n))) ∧
      (∀ v p : W64, mix c v p = rotate c (v * p) 41 ^^^ (v * p)) ∧
      ∀ a b : W64, finFh c a b = mux (rotate c (a + b) 17) c.p4 + mix c (a ^^^ b) c.p0) ∧
  ((∀ n : Nat, 1 ≤ n → n ≤ 31 → mxs32 0 n = 0) ∧ fin32 0 = 0 ∧ fin64 0 = 0 ∧ scr64 0 = 0 ∧ (∀ p : W64, mux 0 p = 0) ∧
    ∀ c : Params, (∀ p : W64, mix c 0 p = 0) ∧ finFh c 0 0 = 0) ∧
  ((∀ n : Nat, 1 ≤ n → n ≤ 31 → Function.Bijective (fun h : W32 => mxs32 h n)) ∧ Function.Bijective fin32 ∧
    Function.Bijective fin64 ∧ Function.Bijective scr64) ∧
  (∀ (c : Params) (a b : W64), finFh c a b = finFh c b a) ∧ (∀ p : W64, mux 1 p = p) ∧ (∀ v p : W64, mux v p = mux p v) ∧
    ∀ p : W64, p ≠ 0 → mux 0xffffffffffffffff p = 0xffffffffffffffff

/-- R9, R244, R6: a rotate to the right brings bit `(i + n) mod 64` of `v` to bit `i`; with the other direction it brings bit
`i` to bit `(i + n) mod 64`. -/
def Obligations.RotateMovesBits : Prop :=
  ∀ (c : Params) (v : W64) (n i : Nat), 0 < n → n < 64 → i < 64 →
    (c.rotDir = .right → (rotate c v n).getLsbD i = v.getLsbD ((i + n) % 64)) ∧
    (c.rotDir = .left → (rotate c v n).getLsbD ((i + n) % 64) = v.getLsbD i)

/-- R10, R81, R82: a read of `n` bytes is the little-endian sum of the bytes at `n` successive addresses. -/
def Obligations.ReadsAreLittleEndian : Prop :=
  ∀ (s : State) (w n : Nat) (a : Addr) (v : BitVec w), 8 * n ≤ w → readWord s w a n = .value v →
    ∃ f : Nat → Byte, (∀ i < n, byteAnswer s (a + BitVec.ofNat 64 i) = .value (f i)) ∧
      v.toNat = ∑ i ∈ Finset.range n, 2 ^ (8 * i) * (f i).toNat

/-- R11: no carry or borrow crosses from the low lane to the high lane. -/
def Obligations.LanesDoNotCarry : Prop :=
  ∀ u v : V128,
    hiLane (add2 u v) = hiLane u + hiLane v ∧ loLane (add2 u v) = loLane u + loLane v ∧
    hiLane (sub2 u v) = hiLane u - hiLane v ∧ loLane (sub2 u v) = loLane u - loLane v ∧
    lanes (hiLane u) (loLane u) = u

/-- R213, R214: the field product is the one `xtime` and `^` generate, every byte but 0 has an inverse, the S-box table is the
affine map of the inverse, and the other table is its inverse permutation. -/
def Obligations.SboxTablesAreTheAlgebra : Prop :=
  (∀ v : Byte, xtime v = if v.getLsbD 7 then (v <<< 1) ^^^ 0x1b else v <<< 1) ∧
    (∀ v : Byte, gmul v 0 = 0 ∧ gmul v 1 = v ∧ gmul v 2 = xtime v) ∧
    (∀ v w : Byte, gmul v (xtime w) = xtime (gmul v w) ∧ gmul v w = gmul w v) ∧
    (∀ u v w : Byte, gmul u (v ^^^ w) = gmul u v ^^^ gmul u w) ∧
    (∀ v : Byte, v ≠ 0 → ∃ w : Byte, gmul v w = 1) ∧
    (∀ v w : Byte, (v = 0 ∧ w = 0) ∨ gmul v w = 1 →
      sbox v = w ^^^ w.rotateLeft 1 ^^^ w.rotateLeft 2 ^^^ w.rotateLeft 3 ^^^ w.rotateLeft 4 ^^^ 0x63) ∧
    ∀ v : Byte, isbox (sbox v) = v ∧ sbox (isbox v) = v

/-- R6, R220: `ENC` and `DEC` are the two rounds where the configuration chooses the spec's default, the first operand the data
and the second the key. R212, R215 to R219: each byte of `ENC(V, K)` and of `DEC(V, K)` at their defaults, from the bytes of
`V` and `K`; byte `r + 4c` is row `r`, column `c`. -/
def Obligations.RoundsByBytes : Prop :=
  (∀ (c : Params) (v k : V128),
    (c.encChoice = .specDefault → enc c v k = aesEnc v k) ∧ (c.decChoice = .specDefault → dec c v k = aesDec v k)) ∧
  ∀ (v k : V128) (r c : Nat), r < 4 → c < 4 →
    (let s := fun i j => sbox (byteOf v (i + 4 * ((j + i) % 4)))
     byteOf (aesEnc v k) (r + 4 * c) =
        (match r with
          | 0 => gmul 2 (s 0 c) ^^^ gmul 3 (s 1 c) ^^^ s 2 c ^^^ s 3 c
          | 1 => s 0 c ^^^ gmul 2 (s 1 c) ^^^ gmul 3 (s 2 c) ^^^ s 3 c
          | 2 => s 0 c ^^^ s 1 c ^^^ gmul 2 (s 2 c) ^^^ gmul 3 (s 3 c)
          | _ => gmul 3 (s 0 c) ^^^ s 1 c ^^^ s 2 c ^^^ gmul 2 (s 3 c)) ^^^ byteOf k (r + 4 * c)) ∧
    (let s := fun i j => isbox (byteOf v (i + 4 * ((j + 4 - i) % 4)))
     byteOf (aesDec v k) (r + 4 * c) =
        (match r with
          | 0 => gmul 14 (s 0 c) ^^^ gmul 11 (s 1 c) ^^^ gmul 13 (s 2 c) ^^^ gmul 9 (s 3 c)
          | 1 => gmul 9 (s 0 c) ^^^ gmul 14 (s 1 c) ^^^ gmul 11 (s 2 c) ^^^ gmul 13 (s 3 c)
          | 2 => gmul 13 (s 0 c) ^^^ gmul 9 (s 1 c) ^^^ gmul 14 (s 2 c) ^^^ gmul 11 (s 3 c)
          | _ => gmul 11 (s 0 c) ^^^ gmul 13 (s 1 c) ^^^ gmul 9 (s 2 c) ^^^ gmul 14 (s 3 c)) ^^^ byteOf k (r + 4 * c))

/-! ### The register port -/

/-- R39: a read of the right shape changes nothing but the value returned; the reserved offsets read as 0 and ignore
writes; an access of another shape is refused. -/
def Obligations.RegisterAccessRules : Prop :=
  ∀ (s : State) (o : BitVec 8) (width : Nat) (v : W64) (rest : List Event), s.rst = false →
    (s.inbox = .read o width :: rest → width = 8 → o.toNat % 8 = 0 →
      ∃ r : W64, step s = .next { s with inbox := rest, rdata := r } ∧ (0x38 ≤ o.toNat → r = 0)) ∧
    (s.inbox = .write o width v :: rest → width = 8 → o.toNat % 8 = 0 → 0x38 ≤ o.toNat →
      step s = .next { s with inbox := rest }) ∧
    (s.inbox = .read o width :: rest ∨ s.inbox = .write o width v :: rest → width ≠ 8 ∨ o.toNat % 8 ≠ 0 →
      step s = .refused .accessShape)

/-- R31 to R38: what a read of each of the seven registers returns. -/
def Obligations.RegistersReadBack : Prop :=
  ∀ (s : State) (rest : List Event), s.rst = false →
    (s.inbox = .read 0x00 8 :: rest → step s = .next { s with inbox := rest, rdata := 0 }) ∧
    (s.inbox = .read 0x08 8 :: rest → ∃ r : W64, step s = .next { s with inbox := rest, rdata := r } ∧
      r.getLsbD 0 = s.status.busy ∧ r.getLsbD 1 = s.status.done ∧ r.getLsbD 2 = s.status.err ∧
      r.getLsbD 3 = s.status.ovr ∧ r.extractLsb' 8 56 = 0 ∧
      (r.extractLsb' 4 4).toNat =
        match s.status.ecode with | .none => 0 | .illegalCommand => 1 | .badLength => 2 | .busError => 3) ∧
    (s.inbox = .read 0x10 8 :: rest →
      step s = .next { s with inbox := rest, rdata := if s.ie then 1 else 0 }) ∧
    (s.inbox = .read 0x18 8 :: rest → step s = .next { s with inbox := rest, rdata := s.data }) ∧
    (s.inbox = .read 0x20 8 :: rest → step s = .next { s with inbox := rest, rdata := s.len }) ∧
    (s.inbox = .read 0x28 8 :: rest → step s = .next { s with inbox := rest, rdata := s.seed }) ∧
    (s.inbox = .read 0x30 8 :: rest → step s = .next { s with inbox := rest, rdata := s.result })

/-- R33 to R38: what a write of each register but `CMD` does, also while `BUSY = 1`: `STATUS` is write-one-to-clear on bits 1
to 3, `CTRL` stores bit 0, `DATA`, `LEN`, `SEED` are stored, `RESULT` ignores the write. -/
def Obligations.RegisterWrites : Prop :=
  ∀ (s : State) (v : W64) (rest : List Event), s.rst = false →
    (s.inbox = .write 0x08 8 v :: rest → step s = .next { s with
      inbox := rest
      status :=
        { busy := s.status.busy
          done := if v.getLsbD 1 then false else s.status.done
          err := if v.getLsbD 2 then false else s.status.err
          ovr := if v.getLsbD 3 then false else s.status.ovr
          ecode := if v.getLsbD 2 then .none else s.status.ecode } }) ∧
    (s.inbox = .write 0x10 8 v :: rest → step s = .next { s with inbox := rest, ie := v.getLsbD 0 }) ∧
    (s.inbox = .write 0x18 8 v :: rest → step s = .next { s with inbox := rest, data := v }) ∧
    (s.inbox = .write 0x20 8 v :: rest → step s = .next { s with inbox := rest, len := v }) ∧
    (s.inbox = .write 0x28 8 v :: rest → step s = .next { s with inbox := rest, seed := v }) ∧
    (s.inbox = .write 0x30 8 v :: rest → step s = .next { s with inbox := rest })

/-- R40, R281: the interrupt output is 1 exactly when `IE` is 1 and `DONE` or `ERR` is, and `OVR` has no part in it. It rises in
the step that sets `DONE` or `ERR` while `IE = 1`, or in the `CTRL` write that sets `IE` while one of them is 1, and in no other
step. It falls when the host clears the flags or `IE`, or by a `CMD` write that is not dropped, which always takes `DONE` away,
or at reset, and in no other step. -/
def Obligations.IrqRisesOnlyForItsCauses : Prop :=
  ((∀ s : State, s.irq = true ↔ s.ie = true ∧ (s.status.done = true ∨ s.status.err = true)) ∧
    ∀ (s : State) (ovr : Bool), { s with status := { s.status with ovr := ovr } }.irq = s.irq) ∧
  (∀ s t : State, step s = .next t →
    (s.irq = false → t.irq = true →
      (s.ie = true ∧
        ((s.status.done = false ∧ t.status.done = true) ∨ (s.status.err = false ∧ t.status.err = true))) ∨
      ∃ (v : W64) (rest : List Event), s.inbox = .write 0x10 8 v :: rest ∧ v.getLsbD 0 = true ∧
        (s.status.done = true ∨ s.status.err = true)) ∧
    (s.ie = true → (s.status.done = false ∧ t.status.done = true) ∨ (s.status.err = false ∧ t.status.err = true) →
      t.irq = true) ∧
    (s.irq = true → t.irq = false →
      (∃ (v : W64) (rest : List Event), s.inbox = .write 0x08 8 v :: rest ∧
        (s.status.done = true → v.getLsbD 1 = true) ∧ (s.status.err = true → v.getLsbD 2 = true)) ∨
      (∃ (v : W64) (rest : List Event), s.inbox = .write 0x10 8 v :: rest ∧ v.getLsbD 0 = false) ∨
      (∃ (w : W64) (rest : List Event), s.inbox = cmdWrite w :: rest ∧ s.status.busy = false) ∨
      ∃ rest : List Event, s.inbox = .assertReset :: rest)) ∧
  (∀ (s : State) (v : W64) (rest : List Event), s.rst = false →
    (s.inbox = .write 0x08 8 v :: rest → ∃ t : State, step s = .next t ∧
      (t.irq = true ↔ s.ie = true ∧
        ((s.status.done = true ∧ v.getLsbD 1 = false) ∨ (s.status.err = true ∧ v.getLsbD 2 = false)))) ∧
    (s.inbox = .write 0x10 8 v :: rest → ∃ t : State, step s = .next t ∧
      (t.irq = true ↔ v.getLsbD 0 = true ∧ (s.status.done = true ∨ s.status.err = true)))) ∧
  ∀ (s t : State) (w : W64) (rest : List Event), s.inbox = cmdWrite w :: rest → s.status.busy = false → step s = .next t →
    t.status.done = false ∧ (t.status.busy = true → t.irq = false) ∧
      (t.irq = true ↔ s.ie = true ∧ t.status.err = true)

/-! ### Reset -/

/-- R58, R311: the reset state, in every piece the spec gives a value. -/
def Obligations.ResetState : Prop :=
  statusWord State.reset.status = 0 ∧ ctrlWord State.reset.ie = 0 ∧ State.reset.data = 0 ∧ State.reset.len = 0 ∧
    State.reset.seed = 0 ∧ State.reset.result = 0 ∧ State.reset.phase = .idle ∧ State.reset.irq = false

/-- R310, R312: asserting reset leads from any state, also a busy one, to the reset state: no result, no error, every
host-visible register 0, `PH = IDLE`; the parameters, the platform and the memory are not touched. Until it is released, a
host access is refused and the engine takes no step. -/
def Obligations.ResetFromAnyState : Prop :=
  ∀ (s : State) (rest : List Event),
    (s.inbox = .assertReset :: rest → ∃ t : State, step s = .next t ∧ t.rst = true ∧
      statusWord t.status = 0 ∧ ctrlWord t.ie = 0 ∧ t.data = 0 ∧ t.len = 0 ∧ t.seed = 0 ∧ t.result = 0 ∧
      t.phase = .idle ∧ t.irq = false ∧ t.cfg = s.cfg ∧ t.plat = s.plat ∧ t.buffers = s.buffers ∧ t.mem = s.mem ∧
      t.inbox = rest) ∧
    (s.rst = true →
      (∀ (o : BitVec 8) (width : Nat), s.inbox = .read o width :: rest → step s = .refused .accessDuringReset) ∧
      (∀ (o : BitVec 8) (width : Nat) (v : W64), s.inbox = .write o width v :: rest →
        step s = .refused .accessDuringReset) ∧
      (s.inbox = .engine :: rest → step s = .next { s with inbox := rest }) ∧
      (s.inbox = .releaseReset :: rest → step s = .next { s with inbox := rest, rst := false }))

/-! ### Invariants -/

/-- The invariants hold at reset. -/
def Obligations.InvariantsHoldAtReset : Prop :=
  StatusInv State.reset ∧ CursorInv State.reset ∧ State.reset.mem.wf = true

/-- R33, R42: every step keeps the agreement of the flags and the phase. -/
def Obligations.StepKeepsStatusInv : Prop :=
  ∀ s t : State, StatusInv s → step s = .next t → StatusInv t

/-- R43 to R45, R184, R202: every step keeps `PTR`, `REM` and `NBLK` in agreement with the buffer latched at issue. -/
def Obligations.StepKeepsCursorInv : Prop :=
  ∀ s t : State, StatusInv s → CursorInv s → step s = .next t → CursorInv t

/-- Every step keeps the canonical form of the memory. -/
def Obligations.StepKeepsMemoryWf : Prop :=
  ∀ s t : State, s.mem.wf = true → step s = .next t → t.mem.wf = true

/-- R54, R88: no step changes the configuration or the platform, only another agent's write changes a byte of memory, and
only the callers change their true buffers (the model's own, log entry 8). -/
def Obligations.ConfigurationAndMemoryPersist : Prop :=
  ∀ s t : State, s.mem.wf = true → step s = .next t →
    t.cfg = s.cfg ∧ t.plat = s.plat ∧
    (∀ a : Addr, byteAnswer t a ≠ byteAnswer s a →
      ∃ rest : List Event, s.inbox = .unmap a :: rest ∨ ∃ v : Byte, s.inbox = .poke a v :: rest) ∧
    (t.buffers ≠ s.buffers → ∃ rest : List Event, s.inbox = .declare t.buffers :: rest)

/-! ### Runs -/

/-- R315: a host write of `DATA`, `LEN`, `SEED` or `CTRL` and an engine step may be taken in either order: the running
command is not affected. -/
def Obligations.OperandWritesDoNotDisturb : Prop :=
  ∀ (s : State) (v : W64) (r : Register), r = .data ∨ r = .len ∨ r = .seed ∨ r = .ctrl →
    engineTurn (writeRegister s r v) = writeRegister (engineTurn s) r v

/-- R3, R51: the outcome of a command depends on the operands, the memory and the configuration alone: two machines that
agree on these and on nothing else stay alike in the flags, and in `RESULT` once the command has completed, if the bytes a hash
command reads are bytes of a true buffer on both (R275). -/
def Obligations.OutcomeIndependentOfHistory : Prop :=
  ∀ (i : Instr) (s s' t t' : State), s.quiet → s'.quiet →
    s.data = s'.data → s.len = s'.len → s.seed = s'.seed → s.mem = s'.mem → s.cfg = s'.cfg → s.plat = s'.plat →
    exec i s = .next t → exec i s' = .next t' →
    ∀ (k : Nat) (u u' : State), Sys2Proof.core.run k t = .next u → Sys2Proof.core.run k t' = .next u' →
      u.status.busy = u'.status.busy ∧ u.status.done = u'.status.done ∧ u.status.err = u'.status.err ∧
      u.status.ecode = u'.status.ecode ∧
      (u.status.done = true →
        (readsBuffer i = true → inTrueBuffer s.buffers s.data.toNat s.len.toNat = true ∧
          inTrueBuffer s'.buffers s'.data.toNat s'.len.toNat = true) →
        u.result = u'.result)

/-- R319, R320: with no event in between and a memory that answers, a running command ends after a bounded number of
engine steps, with `DONE` or with `ERR`. -/
def Obligations.EveryRunningCommandEnds : Prop :=
  ∀ s : State, s.status.busy = true → s.phase ≠ .idle → s.rst = false → s.inbox = [] →
    (∀ a : Addr, byteAnswer s a ≠ .noAnswer) →
    ∃ (k : Nat) (u : State), k ≤ s.rem.toNat + s.nblk.toNat + 6 ∧ Sys2Proof.core.run k s = .next u ∧
      u.status.busy = false ∧ u.phase = .idle ∧ (u.status.done = true ∨ u.status.err = true)

/-- R280: a step stops only on a host access: the engine's turn, a change of memory and reset always have a next state, and
from an idle engine every `CMD` write whose buffer keeps the contract has one. -/
def Obligations.EveryOtherStepGoesOn : Prop :=
  ∀ s : State,
    ((∀ (o : BitVec 8) (width : Nat) (rest : List Event), s.inbox ≠ .read o width :: rest) →
      (∀ (o : BitVec 8) (width : Nat) (v : W64) (rest : List Event), s.inbox ≠ .write o width v :: rest) →
      ∃ t : State, step s = .next t) ∧
    (∀ (w : W64) (rest : List Event), s.inbox = cmdWrite w :: rest → s.rst = false → s.keepsContract →
      ∃ t : State, step s = .next t)

/-- R93, U4, R281; the record of the race is the model's own (log entry 12): another agent's write is recorded exactly when it
changes a byte of the running command's buffer, one that makes an address unreadable exactly when a byte of the buffer was
there; either changes that byte, the record and nothing else of the machine; and a command of any of the three hashes that completes after such a change delivers a value of which nothing is
known, in all 64 bits of `RESULT`. -/
def Obligations.ChangedBufferIsARace : Prop :=
  (∀ (s : State) (a : Addr) (v : Byte) (rest : List Event), s.inbox = .poke a v :: rest →
    ∃ (m : Memory) (raced : Bool), step s = .next { s with inbox := rest, mem := m, raced := raced } ∧
      m.lookup a.toNat = some v ∧ (∀ b : Addr, b ≠ a → m.lookup b.toNat = s.mem.lookup b.toNat) ∧
      (raced = true ↔ s.raced = true ∨
        (s.status.busy = true ∧ s.bufBase.toNat ≤ a.toNat ∧ a.toNat < s.bufBase.toNat + s.bufLen.toNat ∧
          s.mem.lookup a.toNat ≠ some v))) ∧
  (∀ (s : State) (a : Addr) (rest : List Event), s.inbox = .unmap a :: rest →
    ∃ (m : Memory) (raced : Bool), step s = .next { s with inbox := rest, mem := m, raced := raced } ∧
      (s.mem.wf = true → m.lookup a.toNat = none) ∧ (∀ b : Addr, b ≠ a → m.lookup b.toNat = s.mem.lookup b.toNat) ∧
      (raced = true ↔ s.raced = true ∨
        (s.status.busy = true ∧ s.bufBase.toNat ≤ a.toNat ∧ a.toNat < s.bufBase.toNat + s.bufLen.toNat ∧
          s.mem.lookup a.toNat ≠ none))) ∧
  (∀ s : State, s.status.busy = true → s.rst = false → s.raced = true →
    s.phase = .m32Fin ∨ s.phase = .m64Fin ∨ s.phase = .fhFin →
    (engineTurn s).result = Config.freeValue 64 s.free ∧
      (engineTurn s).status = { s.status with done := true, busy := false } ∧ (engineTurn s).phase = .idle)

/-- R275, U1; the record is the model's own (log entry 8): a length beyond the true buffer is not detected, and no rule gives
the command a value. Whether the bytes are those of a true buffer is recorded at acceptance and when the callers' buffers
change; a command that completes with some byte outside one delivers a value of which nothing is known; and a run to
completion of such a command, from its issue, with no event in between, ends so. A change of the callers' buffers changes
nothing else of the machine. -/
def Obligations.LengthBeyondTheBufferFreesTheResult : Prop :=
  (∀ (i : Instr) (s t : State), readsBuffer i = true → s.status.busy = false → exec i s = .next t →
    t.status.busy = true → (t.strayed = true ↔ inTrueBuffer s.buffers s.data.toNat s.len.toNat = false)) ∧
  (∀ (s : State) (buffers : List Extent) (rest : List Event), s.inbox = .declare buffers :: rest →
    ∃ strayed : Bool, step s = .next { s with inbox := rest, buffers := buffers, strayed := strayed } ∧
      (strayed = true ↔ s.strayed = true ∨
        (s.status.busy = true ∧ inTrueBuffer buffers s.bufBase.toNat s.bufLen.toNat = false))) ∧
  (∀ s : State, s.status.busy = true → s.rst = false → s.strayed = true →
    s.phase = .m32Fin ∨ s.phase = .m64Fin ∨ s.phase = .fhFin →
    (engineTurn s).result = Config.freeValue 64 s.free ∧
      (engineTurn s).status = { s.status with done := true, busy := false } ∧ (engineTurn s).phase = .idle) ∧
  ∀ (i : Instr) (s t : State), readsBuffer i = true → s.quiet → exec i s = .next t →
    inTrueBuffer s.buffers s.data.toNat s.len.toNat = false →
    ∀ (k : Nat) (u : State), Sys2Proof.core.run k t = .next u → u.status.done = true →
      u.result = Config.freeValue 64 s.free

/-! ### Scripts -/

/-- R116, R117: what the host's turn does with each kind of line, out of reset. `WAIT` stays until a read of `STATUS` has bit 0
clear, and keeps the last value read. How scripts run, and that a script goes on and stays in error once it is, are the model's
choice (log entries 27, 28). -/
def Obligations.ScriptLineByLine : Prop :=
  ∀ (p : Script) (s : State) (rest : List Line), s.rst = false →
    (∀ (r : Register) (v : W64), r ≠ .cmd → p.lines = .wr r v :: rest →
      hostTurn p s = .next ({ p with lines := rest }, writeRegister s r v)) ∧
    (∀ i : Instr, p.lines = commandLine i :: rest → ∀ t : State, exec i s = .next t →
      hostTurn p s = .next ({ p with lines := rest }, t)) ∧
    (∀ (r : Register) (n : ValueName), p.lines = .rd r n :: rest →
      hostTurn p s = .next ({ p with lines := rest, values := (n, readRegister s r) :: p.values },
        { s with rdata := readRegister s r })) ∧
    (∀ n : ValueName, p.lines = .wait n :: rest →
      hostTurn p s = .next
        ({ p with
            lines := if s.status.busy then .wait n :: rest else rest
            values := (n, statusWord s.status) :: p.values },
          { s with rdata := statusWord s.status })) ∧
    (∀ (n : ValueName) (bit : Nat) (v : W64), p.lines = .errorIf n bit :: rest → scriptValue p n = some v →
      hostTurn p s = .next ({ p with lines := rest, inError := p.inError || v.getLsbD bit }, s))

/-- R117, R272: the script `CALL` of `MIX32` or `MIX64A` with a length the command rejects, from an idle engine, is in error
when it is finished, under every schedule of the host's and the engine's turns, and leaves `RESULT` as it was. The turns, and
that seven of the host's finish the script, the error test being one of them, are the model's choice (log entry 27), and so is
that the error is kept in the turns after it (log entry 28). -/
def Obligations.CallOfABadLengthIsInError : Prop :=
  ∀ (s : State) (i : Instr) (data len seed : W64), i = .mix32 ∨ i = .mix64a → s.status.busy = false → s.rst = false →
    2 ^ 31 ≤ len.toNat → ∀ turns : List Turn, (∀ x ∈ turns, x = .host ∨ x = .world .engine) →
    ∃ (q : Script) (u : State), runTurns turns (startScript (callLines i data len seed 0 1)) s = .next (q, u) ∧
      u.result = s.result ∧
      (7 ≤ turns.count .host → q.lines = [] ∧ q.inError = true ∧ u.status = Status.failed .badLength s.status.ovr)
end

