-- ==== Sys2Proof/Laws/Memory.lean ====
section
/-!
SUPPORT. The laws of the buffer memory (20_memory.md R80, R81): what reads after a change, and that every operation keeps
the canonical form.
-/

namespace Sys2Proof.Machine

@[simp] theorem Memory.lookup_nil (a : Nat) : Memory.lookup [] a = unlisted := rfl

theorem Memory.lookup_cons (k : Nat) (v : Byte) (m : Memory) (a : Nat) :
    Memory.lookup ((k, v) :: m) a = if k = a then some v else Memory.lookup m a := rfl

/-- A byte written is read back. -/
@[simp] theorem Memory.lookup_store_same (m : Memory) (a : Nat) (b : Byte) : (m.store a b).lookup a = some b := by
  induction m with
  | nil => simp [Memory.store, Memory.lookup]
  | cons c m ih =>
    obtain ⟨k, v⟩ := c
    by_cases h1 : a < k
    · simp [Memory.store, Memory.lookup, h1]
    · by_cases h2 : a = k
      · simp [Memory.store, Memory.lookup, h2]
      · simp [Memory.store, Memory.lookup, h1, h2, Ne.symm h2, ih]

/-- A write leaves every other address alone. -/
theorem Memory.lookup_store_other (m : Memory) (a c : Nat) (b : Byte) (h : c ≠ a) :
    (m.store a b).lookup c = m.lookup c := by
  induction m with
  | nil => simp [Memory.store, Memory.lookup, Ne.symm h]
  | cons q m ih =>
    obtain ⟨k, v⟩ := q
    by_cases h1 : a < k
    · simp [Memory.store, Memory.lookup, h1, Ne.symm h]
    · by_cases h2 : a = k
      · subst h2
        simp [Memory.store, Memory.lookup, Ne.symm h]
      · simp [Memory.store, Memory.lookup, h1, h2, ih]

/-- An address below the lower bound of a canonical memory is not listed. -/
theorem Memory.lookup_of_lt {lo : Nat} {m : Memory} (hm : Memory.wfFrom lo m = true) {a : Nat} (ha : a < lo) :
    m.lookup a = unlisted := by
  induction m generalizing lo with
  | nil => rfl
  | cons q m ih =>
    obtain ⟨k, v⟩ := q
    simp only [Memory.wfFrom, Bool.and_eq_true, decide_eq_true_eq] at hm
    have hne : k ≠ a := by omega
    rw [Memory.lookup_cons, if_neg hne]
    exact ih hm.2 (by omega)

/-- An address made unreadable is unreadable. -/
theorem Memory.lookup_erase_same {lo : Nat} {m : Memory} (hm : Memory.wfFrom lo m = true) (a : Nat) :
    (m.erase a).lookup a = unlisted := by
  induction m generalizing lo with
  | nil => rfl
  | cons q m ih =>
    obtain ⟨k, v⟩ := q
    simp only [Memory.wfFrom, Bool.and_eq_true, decide_eq_true_eq] at hm
    by_cases h : k = a
    · simp only [Memory.erase, h, if_true]
      exact Memory.lookup_of_lt hm.2 (by omega)
    · simp only [Memory.erase, h, if_false, Memory.lookup_cons]
      exact ih hm.2

/-- Making an address unreadable leaves every other address alone. -/
theorem Memory.lookup_erase_other (m : Memory) (a c : Nat) (h : c ≠ a) : (m.erase a).lookup c = m.lookup c := by
  induction m with
  | nil => rfl
  | cons q m ih =>
    obtain ⟨k, v⟩ := q
    by_cases hk : k = a
    · have : k ≠ c := by omega
      simp [Memory.erase, Memory.lookup, hk]
      omega
    · simp [Memory.erase, Memory.lookup, hk, ih]

theorem Memory.wfFrom_store {lo : Nat} {m : Memory} (hm : Memory.wfFrom lo m = true) {a : Nat} (h1 : lo ≤ a)
    (h2 : a < 2 ^ 64) (b : Byte) : Memory.wfFrom lo (m.store a b) = true := by
  induction m generalizing lo with
  | nil => simp [Memory.store, Memory.wfFrom]; omega
  | cons q m ih =>
    obtain ⟨k, v⟩ := q
    simp only [Memory.wfFrom, Bool.and_eq_true, decide_eq_true_eq] at hm
    by_cases hlt : a < k
    · simp only [Memory.store, hlt, if_true, Memory.wfFrom, Bool.and_eq_true, decide_eq_true_eq]
      exact ⟨⟨h1, h2⟩, ⟨by omega, hm.1.2⟩, hm.2⟩
    · by_cases heq : a = k
      · subst heq
        simp only [Memory.store, hlt, if_false, if_true, Memory.wfFrom, Bool.and_eq_true, decide_eq_true_eq]
        exact ⟨⟨h1, h2⟩, hm.2⟩
      · simp only [Memory.store, hlt, heq, if_false, Memory.wfFrom, Bool.and_eq_true, decide_eq_true_eq]
        exact ⟨hm.1, ih hm.2 (by omega)⟩

theorem Memory.wfFrom_mono {lo lo' : Nat} {m : Memory} (hm : Memory.wfFrom lo m = true) (h : lo' ≤ lo) :
    Memory.wfFrom lo' m = true := by
  cases m with
  | nil => rfl
  | cons q m =>
    obtain ⟨k, v⟩ := q
    simp only [Memory.wfFrom, Bool.and_eq_true, decide_eq_true_eq] at hm ⊢
    exact ⟨⟨by omega, hm.1.2⟩, hm.2⟩

theorem Memory.wfFrom_erase {lo : Nat} {m : Memory} (hm : Memory.wfFrom lo m = true) (a : Nat) :
    Memory.wfFrom lo (m.erase a) = true := by
  induction m generalizing lo with
  | nil => rfl
  | cons q m ih =>
    obtain ⟨k, v⟩ := q
    simp only [Memory.wfFrom, Bool.and_eq_true, decide_eq_true_eq] at hm
    by_cases h : k = a
    · simp only [Memory.erase, h, if_true]
      exact Memory.wfFrom_mono hm.2 (by omega)
    · simp only [Memory.erase, h, if_false, Memory.wfFrom, Bool.and_eq_true, decide_eq_true_eq]
      exact ⟨hm.1, ih hm.2⟩

/-- A write keeps the canonical form. -/
theorem Memory.wf_store {m : Memory} (hm : m.wf = true) (a : Addr) (b : Byte) : (m.store a.toNat b).wf = true :=
  Memory.wfFrom_store hm (Nat.zero_le _) a.isLt b

/-- Making an address unreadable keeps the canonical form. -/
theorem Memory.wf_erase {m : Memory} (hm : m.wf = true) (a : Nat) : (m.erase a).wf = true := Memory.wfFrom_erase hm a

/-- The memory of the reset state has the canonical form. -/
theorem Memory.wf_reset : State.reset.mem.wf = true := rfl

end Sys2Proof.Machine
end

