-- ==== Sys2Proof/Laws/State.lean ====
section
/-!
SUPPORT. The fields of the state after each shared update, one lemma per field and update, so that no proof unfolds an
update.
-/

namespace Sys2Proof.Machine

/-! ### The flags -/

@[simp] theorem statusRaised_eq (c : ECode) (st : Status) :
    statusRaised c st = ⟨false, st.done, true, st.ovr, c⟩ := rfl

@[simp] theorem statusCompleted_eq (st : Status) : statusCompleted st = ⟨false, true, st.err, st.ovr, st.ecode⟩ := rfl

@[simp] theorem statusAccepted_eq (st : Status) : statusAccepted st = ⟨true, st.done, st.err, st.ovr, st.ecode⟩ := rfl

@[simp] theorem statusCleared_eq (st : Status) : statusCleared st = ⟨st.busy, false, false, st.ovr, .none⟩ := rfl

@[simp] theorem statusOverrun_eq (st : Status) : statusOverrun st = ⟨st.busy, st.done, st.err, true, st.ecode⟩ := rfl

@[simp] theorem statusAfterWrite_busy (w : W64) (st : Status) : (statusAfterWrite w st).busy = st.busy := rfl

@[simp] theorem statusAfterWrite_done (w : W64) (st : Status) :
    (statusAfterWrite w st).done = (st.done && !w.getLsbD 1) := rfl

@[simp] theorem statusAfterWrite_err (w : W64) (st : Status) :
    (statusAfterWrite w st).err = (st.err && !w.getLsbD 2) := rfl

@[simp] theorem statusAfterWrite_ovr (w : W64) (st : Status) :
    (statusAfterWrite w st).ovr = (st.ovr && !w.getLsbD 3) := rfl

@[simp] theorem statusAfterWrite_ecode (w : W64) (st : Status) :
    (statusAfterWrite w st).ecode = if w.getLsbD 2 then .none else st.ecode := rfl

/-! ### raiseError -/

@[simp] theorem raiseError_status (c : ECode) (s : State) : (raiseError c s).status = statusRaised c s.status := rfl
@[simp] theorem raiseError_ie (c : ECode) (s : State) : (raiseError c s).ie = s.ie := rfl
@[simp] theorem raiseError_data (c : ECode) (s : State) : (raiseError c s).data = s.data := rfl
@[simp] theorem raiseError_len (c : ECode) (s : State) : (raiseError c s).len = s.len := rfl
@[simp] theorem raiseError_seed (c : ECode) (s : State) : (raiseError c s).seed = s.seed := rfl
@[simp] theorem raiseError_result (c : ECode) (s : State) : (raiseError c s).result = s.result := rfl
@[simp] theorem raiseError_phase (c : ECode) (s : State) : (raiseError c s).phase = .idle := rfl
@[simp] theorem raiseError_ptr (c : ECode) (s : State) : (raiseError c s).ptr = s.ptr := rfl
@[simp] theorem raiseError_rem (c : ECode) (s : State) : (raiseError c s).rem = s.rem := rfl
@[simp] theorem raiseError_nblk (c : ECode) (s : State) : (raiseError c s).nblk = s.nblk := rfl
@[simp] theorem raiseError_h32 (c : ECode) (s : State) : (raiseError c s).h32 = s.h32 := rfl
@[simp] theorem raiseError_h64 (c : ECode) (s : State) : (raiseError c s).h64 = s.h64 := rfl
@[simp] theorem raiseError_a (c : ECode) (s : State) : (raiseError c s).a = s.a := rfl
@[simp] theorem raiseError_b (c : ECode) (s : State) : (raiseError c s).b = s.b := rfl
@[simp] theorem raiseError_x (c : ECode) (s : State) : (raiseError c s).x = s.x := rfl
@[simp] theorem raiseError_y (c : ECode) (s : State) : (raiseError c s).y = s.y := rfl
@[simp] theorem raiseError_salt (c : ECode) (s : State) : (raiseError c s).salt = s.salt := rfl
@[simp] theorem raiseError_rst (c : ECode) (s : State) : (raiseError c s).rst = s.rst := rfl
@[simp] theorem raiseError_mem (c : ECode) (s : State) : (raiseError c s).mem = s.mem := rfl
@[simp] theorem raiseError_cfg (c : ECode) (s : State) : (raiseError c s).cfg = s.cfg := rfl
@[simp] theorem raiseError_plat (c : ECode) (s : State) : (raiseError c s).plat = s.plat := rfl
@[simp] theorem raiseError_buffers (c : ECode) (s : State) : (raiseError c s).buffers = s.buffers := rfl
@[simp] theorem raiseError_inbox (c : ECode) (s : State) : (raiseError c s).inbox = s.inbox := rfl
@[simp] theorem raiseError_rdata (c : ECode) (s : State) : (raiseError c s).rdata = s.rdata := rfl
@[simp] theorem raiseError_bufBase (c : ECode) (s : State) : (raiseError c s).bufBase = s.bufBase := rfl
@[simp] theorem raiseError_bufLen (c : ECode) (s : State) : (raiseError c s).bufLen = s.bufLen := rfl
@[simp] theorem raiseError_strayed (c : ECode) (s : State) : (raiseError c s).strayed = s.strayed := rfl
@[simp] theorem raiseError_raced (c : ECode) (s : State) : (raiseError c s).raced = s.raced := rfl
@[simp] theorem raiseError_free (c : ECode) (s : State) : (raiseError c s).free = s.free := rfl

/-! ### forgetInternals -/

@[simp] theorem forgetInternals_status (s : State) : (forgetInternals s).status = s.status := rfl
@[simp] theorem forgetInternals_ie (s : State) : (forgetInternals s).ie = s.ie := rfl
@[simp] theorem forgetInternals_data (s : State) : (forgetInternals s).data = s.data := rfl
@[simp] theorem forgetInternals_len (s : State) : (forgetInternals s).len = s.len := rfl
@[simp] theorem forgetInternals_seed (s : State) : (forgetInternals s).seed = s.seed := rfl
@[simp] theorem forgetInternals_result (s : State) : (forgetInternals s).result = s.result := rfl
@[simp] theorem forgetInternals_phase (s : State) : (forgetInternals s).phase = s.phase := rfl
@[simp] theorem forgetInternals_ptr (s : State) : (forgetInternals s).ptr = Config.freeValue 64 s.free := rfl
@[simp] theorem forgetInternals_rem (s : State) : (forgetInternals s).rem = Config.freeValue 64 (s.free + 1) := rfl
@[simp] theorem forgetInternals_nblk (s : State) : (forgetInternals s).nblk = Config.freeValue 64 (s.free + 2) := rfl
@[simp] theorem forgetInternals_h32 (s : State) : (forgetInternals s).h32 = Config.freeValue 32 (s.free + 3) := rfl
@[simp] theorem forgetInternals_h64 (s : State) : (forgetInternals s).h64 = Config.freeValue 64 (s.free + 4) := rfl
@[simp] theorem forgetInternals_a (s : State) : (forgetInternals s).a = Config.freeValue 64 (s.free + 5) := rfl
@[simp] theorem forgetInternals_b (s : State) : (forgetInternals s).b = Config.freeValue 64 (s.free + 6) := rfl
@[simp] theorem forgetInternals_x (s : State) : (forgetInternals s).x = Config.freeValue 128 (s.free + 7) := rfl
@[simp] theorem forgetInternals_y (s : State) : (forgetInternals s).y = Config.freeValue 128 (s.free + 8) := rfl
@[simp] theorem forgetInternals_salt (s : State) : (forgetInternals s).salt = Config.freeValue 128 (s.free + 9) := rfl
@[simp] theorem forgetInternals_rst (s : State) : (forgetInternals s).rst = s.rst := rfl
@[simp] theorem forgetInternals_mem (s : State) : (forgetInternals s).mem = s.mem := rfl
@[simp] theorem forgetInternals_cfg (s : State) : (forgetInternals s).cfg = s.cfg := rfl
@[simp] theorem forgetInternals_plat (s : State) : (forgetInternals s).plat = s.plat := rfl
@[simp] theorem forgetInternals_buffers (s : State) : (forgetInternals s).buffers = s.buffers := rfl
@[simp] theorem forgetInternals_inbox (s : State) : (forgetInternals s).inbox = s.inbox := rfl
@[simp] theorem forgetInternals_rdata (s : State) : (forgetInternals s).rdata = s.rdata := rfl
@[simp] theorem forgetInternals_bufBase (s : State) : (forgetInternals s).bufBase = s.bufBase := rfl
@[simp] theorem forgetInternals_bufLen (s : State) : (forgetInternals s).bufLen = s.bufLen := rfl
@[simp] theorem forgetInternals_strayed (s : State) : (forgetInternals s).strayed = s.strayed := rfl
@[simp] theorem forgetInternals_raced (s : State) : (forgetInternals s).raced = s.raced := rfl
@[simp] theorem forgetInternals_free (s : State) : (forgetInternals s).free = s.free + 10 := rfl

/-! ### complete -/

@[simp] theorem complete_status (v : W64) (s : State) : (complete v s).status = statusCompleted s.status := rfl
@[simp] theorem complete_ie (v : W64) (s : State) : (complete v s).ie = s.ie := rfl
@[simp] theorem complete_data (v : W64) (s : State) : (complete v s).data = s.data := rfl
@[simp] theorem complete_len (v : W64) (s : State) : (complete v s).len = s.len := rfl
@[simp] theorem complete_seed (v : W64) (s : State) : (complete v s).seed = s.seed := rfl
@[simp] theorem complete_result (v : W64) (s : State) : (complete v s).result = v := rfl
@[simp] theorem complete_phase (v : W64) (s : State) : (complete v s).phase = .idle := rfl
@[simp] theorem complete_ptr (v : W64) (s : State) : (complete v s).ptr = s.ptr := rfl
@[simp] theorem complete_rem (v : W64) (s : State) : (complete v s).rem = s.rem := rfl
@[simp] theorem complete_nblk (v : W64) (s : State) : (complete v s).nblk = s.nblk := rfl
@[simp] theorem complete_h32 (v : W64) (s : State) : (complete v s).h32 = s.h32 := rfl
@[simp] theorem complete_h64 (v : W64) (s : State) : (complete v s).h64 = s.h64 := rfl
@[simp] theorem complete_a (v : W64) (s : State) : (complete v s).a = s.a := rfl
@[simp] theorem complete_b (v : W64) (s : State) : (complete v s).b = s.b := rfl
@[simp] theorem complete_x (v : W64) (s : State) : (complete v s).x = s.x := rfl
@[simp] theorem complete_y (v : W64) (s : State) : (complete v s).y = s.y := rfl
@[simp] theorem complete_salt (v : W64) (s : State) : (complete v s).salt = s.salt := rfl
@[simp] theorem complete_rst (v : W64) (s : State) : (complete v s).rst = s.rst := rfl
@[simp] theorem complete_mem (v : W64) (s : State) : (complete v s).mem = s.mem := rfl
@[simp] theorem complete_cfg (v : W64) (s : State) : (complete v s).cfg = s.cfg := rfl
@[simp] theorem complete_plat (v : W64) (s : State) : (complete v s).plat = s.plat := rfl
@[simp] theorem complete_buffers (v : W64) (s : State) : (complete v s).buffers = s.buffers := rfl
@[simp] theorem complete_inbox (v : W64) (s : State) : (complete v s).inbox = s.inbox := rfl
@[simp] theorem complete_rdata (v : W64) (s : State) : (complete v s).rdata = s.rdata := rfl
@[simp] theorem complete_bufBase (v : W64) (s : State) : (complete v s).bufBase = s.bufBase := rfl
@[simp] theorem complete_bufLen (v : W64) (s : State) : (complete v s).bufLen = s.bufLen := rfl
@[simp] theorem complete_strayed (v : W64) (s : State) : (complete v s).strayed = s.strayed := rfl
@[simp] theorem complete_raced (v : W64) (s : State) : (complete v s).raced = s.raced := rfl
@[simp] theorem complete_free (v : W64) (s : State) : (complete v s).free = s.free := rfl

/-! ### overrun -/

@[simp] theorem overrun_status (s : State) : (overrun s).status = statusOverrun s.status := rfl
@[simp] theorem overrun_ie (s : State) : (overrun s).ie = s.ie := rfl
@[simp] theorem overrun_data (s : State) : (overrun s).data = s.data := rfl
@[simp] theorem overrun_len (s : State) : (overrun s).len = s.len := rfl
@[simp] theorem overrun_seed (s : State) : (overrun s).seed = s.seed := rfl
@[simp] theorem overrun_result (s : State) : (overrun s).result = s.result := rfl
@[simp] theorem overrun_phase (s : State) : (overrun s).phase = s.phase := rfl
@[simp] theorem overrun_ptr (s : State) : (overrun s).ptr = s.ptr := rfl
@[simp] theorem overrun_rem (s : State) : (overrun s).rem = s.rem := rfl
@[simp] theorem overrun_nblk (s : State) : (overrun s).nblk = s.nblk := rfl
@[simp] theorem overrun_h32 (s : State) : (overrun s).h32 = s.h32 := rfl
@[simp] theorem overrun_h64 (s : State) : (overrun s).h64 = s.h64 := rfl
@[simp] theorem overrun_a (s : State) : (overrun s).a = s.a := rfl
@[simp] theorem overrun_b (s : State) : (overrun s).b = s.b := rfl
@[simp] theorem overrun_x (s : State) : (overrun s).x = s.x := rfl
@[simp] theorem overrun_y (s : State) : (overrun s).y = s.y := rfl
@[simp] theorem overrun_salt (s : State) : (overrun s).salt = s.salt := rfl
@[simp] theorem overrun_rst (s : State) : (overrun s).rst = s.rst := rfl
@[simp] theorem overrun_mem (s : State) : (overrun s).mem = s.mem := rfl
@[simp] theorem overrun_cfg (s : State) : (overrun s).cfg = s.cfg := rfl
@[simp] theorem overrun_plat (s : State) : (overrun s).plat = s.plat := rfl
@[simp] theorem overrun_buffers (s : State) : (overrun s).buffers = s.buffers := rfl
@[simp] theorem overrun_inbox (s : State) : (overrun s).inbox = s.inbox := rfl
@[simp] theorem overrun_rdata (s : State) : (overrun s).rdata = s.rdata := rfl
@[simp] theorem overrun_bufBase (s : State) : (overrun s).bufBase = s.bufBase := rfl
@[simp] theorem overrun_bufLen (s : State) : (overrun s).bufLen = s.bufLen := rfl
@[simp] theorem overrun_strayed (s : State) : (overrun s).strayed = s.strayed := rfl
@[simp] theorem overrun_raced (s : State) : (overrun s).raced = s.raced := rfl
@[simp] theorem overrun_free (s : State) : (overrun s).free = s.free := rfl

/-! ### accept -/

@[simp] theorem accept_status (s : State) : (accept s).status = statusAccepted s.status := rfl
@[simp] theorem accept_ie (s : State) : (accept s).ie = s.ie := rfl
@[simp] theorem accept_data (s : State) : (accept s).data = s.data := rfl
@[simp] theorem accept_len (s : State) : (accept s).len = s.len := rfl
@[simp] theorem accept_seed (s : State) : (accept s).seed = s.seed := rfl
@[simp] theorem accept_result (s : State) : (accept s).result = s.result := rfl
@[simp] theorem accept_phase (s : State) : (accept s).phase = s.phase := rfl
@[simp] theorem accept_ptr (s : State) : (accept s).ptr = s.ptr := rfl
@[simp] theorem accept_rem (s : State) : (accept s).rem = s.rem := rfl
@[simp] theorem accept_nblk (s : State) : (accept s).nblk = s.nblk := rfl
@[simp] theorem accept_h32 (s : State) : (accept s).h32 = s.h32 := rfl
@[simp] theorem accept_h64 (s : State) : (accept s).h64 = s.h64 := rfl
@[simp] theorem accept_a (s : State) : (accept s).a = s.a := rfl
@[simp] theorem accept_b (s : State) : (accept s).b = s.b := rfl
@[simp] theorem accept_x (s : State) : (accept s).x = s.x := rfl
@[simp] theorem accept_y (s : State) : (accept s).y = s.y := rfl
@[simp] theorem accept_salt (s : State) : (accept s).salt = s.salt := rfl
@[simp] theorem accept_rst (s : State) : (accept s).rst = s.rst := rfl
@[simp] theorem accept_mem (s : State) : (accept s).mem = s.mem := rfl
@[simp] theorem accept_cfg (s : State) : (accept s).cfg = s.cfg := rfl
@[simp] theorem accept_plat (s : State) : (accept s).plat = s.plat := rfl
@[simp] theorem accept_buffers (s : State) : (accept s).buffers = s.buffers := rfl
@[simp] theorem accept_inbox (s : State) : (accept s).inbox = s.inbox := rfl
@[simp] theorem accept_rdata (s : State) : (accept s).rdata = s.rdata := rfl
@[simp] theorem accept_bufBase (s : State) : (accept s).bufBase = 0 := rfl
@[simp] theorem accept_bufLen (s : State) : (accept s).bufLen = 0 := rfl
@[simp] theorem accept_strayed (s : State) : (accept s).strayed = false := rfl
@[simp] theorem accept_raced (s : State) : (accept s).raced = false := rfl
@[simp] theorem accept_free (s : State) : (accept s).free = s.free := rfl

/-! ### hostRead -/

@[simp] theorem hostRead_status (s : State) (o : BitVec 8) : (hostRead s o).status = s.status := rfl
@[simp] theorem hostRead_ie (s : State) (o : BitVec 8) : (hostRead s o).ie = s.ie := rfl
@[simp] theorem hostRead_data (s : State) (o : BitVec 8) : (hostRead s o).data = s.data := rfl
@[simp] theorem hostRead_len (s : State) (o : BitVec 8) : (hostRead s o).len = s.len := rfl
@[simp] theorem hostRead_seed (s : State) (o : BitVec 8) : (hostRead s o).seed = s.seed := rfl
@[simp] theorem hostRead_result (s : State) (o : BitVec 8) : (hostRead s o).result = s.result := rfl
@[simp] theorem hostRead_phase (s : State) (o : BitVec 8) : (hostRead s o).phase = s.phase := rfl
@[simp] theorem hostRead_ptr (s : State) (o : BitVec 8) : (hostRead s o).ptr = s.ptr := rfl
@[simp] theorem hostRead_rem (s : State) (o : BitVec 8) : (hostRead s o).rem = s.rem := rfl
@[simp] theorem hostRead_nblk (s : State) (o : BitVec 8) : (hostRead s o).nblk = s.nblk := rfl
@[simp] theorem hostRead_h32 (s : State) (o : BitVec 8) : (hostRead s o).h32 = s.h32 := rfl
@[simp] theorem hostRead_h64 (s : State) (o : BitVec 8) : (hostRead s o).h64 = s.h64 := rfl
@[simp] theorem hostRead_a (s : State) (o : BitVec 8) : (hostRead s o).a = s.a := rfl
@[simp] theorem hostRead_b (s : State) (o : BitVec 8) : (hostRead s o).b = s.b := rfl
@[simp] theorem hostRead_x (s : State) (o : BitVec 8) : (hostRead s o).x = s.x := rfl
@[simp] theorem hostRead_y (s : State) (o : BitVec 8) : (hostRead s o).y = s.y := rfl
@[simp] theorem hostRead_salt (s : State) (o : BitVec 8) : (hostRead s o).salt = s.salt := rfl
@[simp] theorem hostRead_rst (s : State) (o : BitVec 8) : (hostRead s o).rst = s.rst := rfl
@[simp] theorem hostRead_mem (s : State) (o : BitVec 8) : (hostRead s o).mem = s.mem := rfl
@[simp] theorem hostRead_cfg (s : State) (o : BitVec 8) : (hostRead s o).cfg = s.cfg := rfl
@[simp] theorem hostRead_plat (s : State) (o : BitVec 8) : (hostRead s o).plat = s.plat := rfl
@[simp] theorem hostRead_buffers (s : State) (o : BitVec 8) : (hostRead s o).buffers = s.buffers := rfl
@[simp] theorem hostRead_inbox (s : State) (o : BitVec 8) : (hostRead s o).inbox = s.inbox := rfl
@[simp] theorem hostRead_rdata (s : State) (o : BitVec 8) :
    (hostRead s o).rdata = readRegister s (registerAt o) := rfl
@[simp] theorem hostRead_bufBase (s : State) (o : BitVec 8) : (hostRead s o).bufBase = s.bufBase := rfl
@[simp] theorem hostRead_bufLen (s : State) (o : BitVec 8) : (hostRead s o).bufLen = s.bufLen := rfl
@[simp] theorem hostRead_strayed (s : State) (o : BitVec 8) : (hostRead s o).strayed = s.strayed := rfl
@[simp] theorem hostRead_raced (s : State) (o : BitVec 8) : (hostRead s o).raced = s.raced := rfl
@[simp] theorem hostRead_free (s : State) (o : BitVec 8) : (hostRead s o).free = s.free := rfl

/-! ### pokeByte -/

@[simp] theorem pokeByte_status (p : Addr) (v : Byte) (s : State) : (pokeByte p v s).status = s.status := rfl
@[simp] theorem pokeByte_ie (p : Addr) (v : Byte) (s : State) : (pokeByte p v s).ie = s.ie := rfl
@[simp] theorem pokeByte_data (p : Addr) (v : Byte) (s : State) : (pokeByte p v s).data = s.data := rfl
@[simp] theorem pokeByte_len (p : Addr) (v : Byte) (s : State) : (pokeByte p v s).len = s.len := rfl
@[simp] theorem pokeByte_seed (p : Addr) (v : Byte) (s : State) : (pokeByte p v s).seed = s.seed := rfl
@[simp] theorem pokeByte_result (p : Addr) (v : Byte) (s : State) : (pokeByte p v s).result = s.result := rfl
@[simp] theorem pokeByte_phase (p : Addr) (v : Byte) (s : State) : (pokeByte p v s).phase = s.phase := rfl
@[simp] theorem pokeByte_ptr (p : Addr) (v : Byte) (s : State) : (pokeByte p v s).ptr = s.ptr := rfl
@[simp] theorem pokeByte_rem (p : Addr) (v : Byte) (s : State) : (pokeByte p v s).rem = s.rem := rfl
@[simp] theorem pokeByte_nblk (p : Addr) (v : Byte) (s : State) : (pokeByte p v s).nblk = s.nblk := rfl
@[simp] theorem pokeByte_h32 (p : Addr) (v : Byte) (s : State) : (pokeByte p v s).h32 = s.h32 := rfl
@[simp] theorem pokeByte_h64 (p : Addr) (v : Byte) (s : State) : (pokeByte p v s).h64 = s.h64 := rfl
@[simp] theorem pokeByte_a (p : Addr) (v : Byte) (s : State) : (pokeByte p v s).a = s.a := rfl
@[simp] theorem pokeByte_b (p : Addr) (v : Byte) (s : State) : (pokeByte p v s).b = s.b := rfl
@[simp] theorem pokeByte_x (p : Addr) (v : Byte) (s : State) : (pokeByte p v s).x = s.x := rfl
@[simp] theorem pokeByte_y (p : Addr) (v : Byte) (s : State) : (pokeByte p v s).y = s.y := rfl
@[simp] theorem pokeByte_salt (p : Addr) (v : Byte) (s : State) : (pokeByte p v s).salt = s.salt := rfl
@[simp] theorem pokeByte_rst (p : Addr) (v : Byte) (s : State) : (pokeByte p v s).rst = s.rst := rfl
@[simp] theorem pokeByte_mem (p : Addr) (v : Byte) (s : State) : (pokeByte p v s).mem = s.mem.store p.toNat v := rfl
@[simp] theorem pokeByte_cfg (p : Addr) (v : Byte) (s : State) : (pokeByte p v s).cfg = s.cfg := rfl
@[simp] theorem pokeByte_plat (p : Addr) (v : Byte) (s : State) : (pokeByte p v s).plat = s.plat := rfl
@[simp] theorem pokeByte_buffers (p : Addr) (v : Byte) (s : State) : (pokeByte p v s).buffers = s.buffers := rfl
@[simp] theorem pokeByte_inbox (p : Addr) (v : Byte) (s : State) : (pokeByte p v s).inbox = s.inbox := rfl
@[simp] theorem pokeByte_rdata (p : Addr) (v : Byte) (s : State) : (pokeByte p v s).rdata = s.rdata := rfl
@[simp] theorem pokeByte_bufBase (p : Addr) (v : Byte) (s : State) : (pokeByte p v s).bufBase = s.bufBase := rfl
@[simp] theorem pokeByte_bufLen (p : Addr) (v : Byte) (s : State) : (pokeByte p v s).bufLen = s.bufLen := rfl
@[simp] theorem pokeByte_strayed (p : Addr) (v : Byte) (s : State) : (pokeByte p v s).strayed = s.strayed := rfl
@[simp] theorem pokeByte_raced (p : Addr) (v : Byte) (s : State) :
    (pokeByte p v s).raced = (s.raced || (s.inBuffer p.toNat && s.mem.lookup p.toNat != some v)) := rfl
@[simp] theorem pokeByte_free (p : Addr) (v : Byte) (s : State) : (pokeByte p v s).free = s.free := rfl

/-! ### unmapByte -/

@[simp] theorem unmapByte_status (p : Addr) (s : State) : (unmapByte p s).status = s.status := rfl
@[simp] theorem unmapByte_ie (p : Addr) (s : State) : (unmapByte p s).ie = s.ie := rfl
@[simp] theorem unmapByte_data (p : Addr) (s : State) : (unmapByte p s).data = s.data := rfl
@[simp] theorem unmapByte_len (p : Addr) (s : State) : (unmapByte p s).len = s.len := rfl
@[simp] theorem unmapByte_seed (p : Addr) (s : State) : (unmapByte p s).seed = s.seed := rfl
@[simp] theorem unmapByte_result (p : Addr) (s : State) : (unmapByte p s).result = s.result := rfl
@[simp] theorem unmapByte_phase (p : Addr) (s : State) : (unmapByte p s).phase = s.phase := rfl
@[simp] theorem unmapByte_ptr (p : Addr) (s : State) : (unmapByte p s).ptr = s.ptr := rfl
@[simp] theorem unmapByte_rem (p : Addr) (s : State) : (unmapByte p s).rem = s.rem := rfl
@[simp] theorem unmapByte_nblk (p : Addr) (s : State) : (unmapByte p s).nblk = s.nblk := rfl
@[simp] theorem unmapByte_h32 (p : Addr) (s : State) : (unmapByte p s).h32 = s.h32 := rfl
@[simp] theorem unmapByte_h64 (p : Addr) (s : State) : (unmapByte p s).h64 = s.h64 := rfl
@[simp] theorem unmapByte_a (p : Addr) (s : State) : (unmapByte p s).a = s.a := rfl
@[simp] theorem unmapByte_b (p : Addr) (s : State) : (unmapByte p s).b = s.b := rfl
@[simp] theorem unmapByte_x (p : Addr) (s : State) : (unmapByte p s).x = s.x := rfl
@[simp] theorem unmapByte_y (p : Addr) (s : State) : (unmapByte p s).y = s.y := rfl
@[simp] theorem unmapByte_salt (p : Addr) (s : State) : (unmapByte p s).salt = s.salt := rfl
@[simp] theorem unmapByte_rst (p : Addr) (s : State) : (unmapByte p s).rst = s.rst := rfl
@[simp] theorem unmapByte_mem (p : Addr) (s : State) : (unmapByte p s).mem = s.mem.erase p.toNat := rfl
@[simp] theorem unmapByte_cfg (p : Addr) (s : State) : (unmapByte p s).cfg = s.cfg := rfl
@[simp] theorem unmapByte_plat (p : Addr) (s : State) : (unmapByte p s).plat = s.plat := rfl
@[simp] theorem unmapByte_buffers (p : Addr) (s : State) : (unmapByte p s).buffers = s.buffers := rfl
@[simp] theorem unmapByte_inbox (p : Addr) (s : State) : (unmapByte p s).inbox = s.inbox := rfl
@[simp] theorem unmapByte_rdata (p : Addr) (s : State) : (unmapByte p s).rdata = s.rdata := rfl
@[simp] theorem unmapByte_bufBase (p : Addr) (s : State) : (unmapByte p s).bufBase = s.bufBase := rfl
@[simp] theorem unmapByte_bufLen (p : Addr) (s : State) : (unmapByte p s).bufLen = s.bufLen := rfl
@[simp] theorem unmapByte_strayed (p : Addr) (s : State) : (unmapByte p s).strayed = s.strayed := rfl
@[simp] theorem unmapByte_raced (p : Addr) (s : State) :
    (unmapByte p s).raced = (s.raced || (s.inBuffer p.toNat && s.mem.lookup p.toNat != unlisted)) := rfl
@[simp] theorem unmapByte_free (p : Addr) (s : State) : (unmapByte p s).free = s.free := rfl

/-! ### declareBuffers -/

@[simp] theorem declareBuffers_status (bs : List Extent) (s : State) : (declareBuffers bs s).status = s.status := rfl
@[simp] theorem declareBuffers_ie (bs : List Extent) (s : State) : (declareBuffers bs s).ie = s.ie := rfl
@[simp] theorem declareBuffers_data (bs : List Extent) (s : State) : (declareBuffers bs s).data = s.data := rfl
@[simp] theorem declareBuffers_len (bs : List Extent) (s : State) : (declareBuffers bs s).len = s.len := rfl
@[simp] theorem declareBuffers_seed (bs : List Extent) (s : State) : (declareBuffers bs s).seed = s.seed := rfl
@[simp] theorem declareBuffers_result (bs : List Extent) (s : State) : (declareBuffers bs s).result = s.result := rfl
@[simp] theorem declareBuffers_phase (bs : List Extent) (s : State) : (declareBuffers bs s).phase = s.phase := rfl
@[simp] theorem declareBuffers_ptr (bs : List Extent) (s : State) : (declareBuffers bs s).ptr = s.ptr := rfl
@[simp] theorem declareBuffers_rem (bs : List Extent) (s : State) : (declareBuffers bs s).rem = s.rem := rfl
@[simp] theorem declareBuffers_nblk (bs : List Extent) (s : State) : (declareBuffers bs s).nblk = s.nblk := rfl
@[simp] theorem declareBuffers_h32 (bs : List Extent) (s : State) : (declareBuffers bs s).h32 = s.h32 := rfl
@[simp] theorem declareBuffers_h64 (bs : List Extent) (s : State) : (declareBuffers bs s).h64 = s.h64 := rfl
@[simp] theorem declareBuffers_a (bs : List Extent) (s : State) : (declareBuffers bs s).a = s.a := rfl
@[simp] theorem declareBuffers_b (bs : List Extent) (s : State) : (declareBuffers bs s).b = s.b := rfl
@[simp] theorem declareBuffers_x (bs : List Extent) (s : State) : (declareBuffers bs s).x = s.x := rfl
@[simp] theorem declareBuffers_y (bs : List Extent) (s : State) : (declareBuffers bs s).y = s.y := rfl
@[simp] theorem declareBuffers_salt (bs : List Extent) (s : State) : (declareBuffers bs s).salt = s.salt := rfl
@[simp] theorem declareBuffers_rst (bs : List Extent) (s : State) : (declareBuffers bs s).rst = s.rst := rfl
@[simp] theorem declareBuffers_mem (bs : List Extent) (s : State) : (declareBuffers bs s).mem = s.mem := rfl
@[simp] theorem declareBuffers_cfg (bs : List Extent) (s : State) : (declareBuffers bs s).cfg = s.cfg := rfl
@[simp] theorem declareBuffers_plat (bs : List Extent) (s : State) : (declareBuffers bs s).plat = s.plat := rfl
@[simp] theorem declareBuffers_inbox (bs : List Extent) (s : State) : (declareBuffers bs s).inbox = s.inbox := rfl
@[simp] theorem declareBuffers_rdata (bs : List Extent) (s : State) : (declareBuffers bs s).rdata = s.rdata := rfl
@[simp] theorem declareBuffers_bufBase (bs : List Extent) (s : State) : (declareBuffers bs s).bufBase = s.bufBase := rfl
@[simp] theorem declareBuffers_bufLen (bs : List Extent) (s : State) : (declareBuffers bs s).bufLen = s.bufLen := rfl
@[simp] theorem declareBuffers_raced (bs : List Extent) (s : State) : (declareBuffers bs s).raced = s.raced := rfl
@[simp] theorem declareBuffers_free (bs : List Extent) (s : State) : (declareBuffers bs s).free = s.free := rfl
@[simp] theorem declareBuffers_buffers (bs : List Extent) (s : State) : (declareBuffers bs s).buffers = bs := rfl
@[simp] theorem declareBuffers_strayed (bs : List Extent) (s : State) :
    (declareBuffers bs s).strayed =
      (s.strayed || (s.status.busy && !inTrueBuffer bs s.bufBase.toNat s.bufLen.toNat)) := rfl

/-! ### resetEngine -/

@[simp] theorem resetEngine_status (s : State) : (resetEngine s).status = .reset := rfl
@[simp] theorem resetEngine_ie (s : State) : (resetEngine s).ie = false := rfl
@[simp] theorem resetEngine_data (s : State) : (resetEngine s).data = 0 := rfl
@[simp] theorem resetEngine_len (s : State) : (resetEngine s).len = 0 := rfl
@[simp] theorem resetEngine_seed (s : State) : (resetEngine s).seed = 0 := rfl
@[simp] theorem resetEngine_result (s : State) : (resetEngine s).result = 0 := rfl
@[simp] theorem resetEngine_phase (s : State) : (resetEngine s).phase = .idle := rfl
@[simp] theorem resetEngine_rst (s : State) : (resetEngine s).rst = s.rst := rfl
@[simp] theorem resetEngine_mem (s : State) : (resetEngine s).mem = s.mem := rfl
@[simp] theorem resetEngine_cfg (s : State) : (resetEngine s).cfg = s.cfg := rfl
@[simp] theorem resetEngine_plat (s : State) : (resetEngine s).plat = s.plat := rfl
@[simp] theorem resetEngine_buffers (s : State) : (resetEngine s).buffers = s.buffers := rfl
@[simp] theorem resetEngine_inbox (s : State) : (resetEngine s).inbox = s.inbox := rfl
@[simp] theorem resetEngine_rdata (s : State) : (resetEngine s).rdata = s.rdata := rfl
@[simp] theorem resetEngine_bufBase (s : State) : (resetEngine s).bufBase = 0 := rfl
@[simp] theorem resetEngine_bufLen (s : State) : (resetEngine s).bufLen = 0 := rfl
@[simp] theorem resetEngine_raced (s : State) : (resetEngine s).raced = false := rfl
@[simp] theorem resetEngine_strayed (s : State) : (resetEngine s).strayed = false := rfl
@[simp] theorem resetEngine_free (s : State) : (resetEngine s).free = s.free + 10 := rfl

end Sys2Proof.Machine
end

