-- ==== Sys2Proof/Laws/Port.lean ====
section
/-!
SUPPORT. The laws of the memory port (20_memory.md R81, R82): what a read answers, how a long read splits into shorter
ones, and what it depends on.
-/

namespace Sys2Proof.Machine

/-! ### Answers -/

@[simp] theorem Answer.andThen_value {α β : Type} (v : α) (k : α → Answer β) : (Answer.value v).andThen k = k v := rfl

@[simp] theorem Answer.andThen_busError {α β : Type} (k : α → Answer β) : Answer.busError.andThen k = .busError := rfl

@[simp] theorem Answer.andThen_noAnswer {α β : Type} (k : α → Answer β) : Answer.noAnswer.andThen k = .noAnswer := rfl

@[simp] theorem Answer.map_value {α β : Type} (f : α → β) (v : α) : (Answer.value v).map f = .value (f v) := rfl

@[simp] theorem Answer.map_busError {α β : Type} (f : α → β) : (Answer.busError : Answer α).map f = .busError := rfl

@[simp] theorem Answer.map_noAnswer {α β : Type} (f : α → β) : (Answer.noAnswer : Answer α).map f = .noAnswer := rfl

theorem Answer.andThen_assoc {α β γ : Type} (r : Answer α) (k : α → Answer β) (l : β → Answer γ) :
    (r.andThen k).andThen l = r.andThen fun v => (k v).andThen l := by
  cases r <;> rfl

theorem Answer.andThen_eq_value {α β : Type} {r : Answer α} {k : α → Answer β} {w : β} :
    r.andThen k = .value w ↔ ∃ v, r = .value v ∧ k v = .value w := by
  cases r <;> simp

theorem Answer.map_eq_value {α β : Type} {r : Answer α} {f : α → β} {w : β} :
    r.map f = .value w ↔ ∃ v, r = .value v ∧ f v = w := by
  cases r <;> simp

/-- All an engine step that depends on a read can do. -/
theorem onAnswer_cases {α : Type} (s : State) (r : Answer α) (k : α → State) :
    (∃ v, r = .value v ∧ onAnswer s r k = k v) ∨ (r = .busError ∧ onAnswer s r k = raiseBusError s) ∨
      (r = .noAnswer ∧ onAnswer s r k = s) := by
  cases r with
  | value v => exact .inl ⟨v, rfl, rfl⟩
  | busError => exact .inr (.inl ⟨rfl, rfl⟩)
  | noAnswer => exact .inr (.inr ⟨rfl, rfl⟩)

@[simp] theorem onAnswer_value {α : Type} (s : State) (v : α) (k : α → State) : onAnswer s (.value v) k = k v := rfl

@[simp] theorem onAnswer_busError {α : Type} (s : State) (k : α → State) :
    onAnswer s (.busError : Answer α) k = raiseBusError s := rfl

@[simp] theorem onAnswer_noAnswer {α : Type} (s : State) (k : α → State) :
    onAnswer s (.noAnswer : Answer α) k = s := rfl

/-! ### Reads -/

@[simp] theorem memRead_zero (s : State) (a : Addr) : memRead s a 0 = .value [] := rfl

theorem memRead_succ (s : State) (a : Addr) (n : Nat) :
    memRead s a (n + 1) = (byteAnswer s a).andThen fun v => (memRead s (a + 1) n).map fun vs => v :: vs := rfl

/-- A read answers with as many bytes as it asked for. -/
theorem memRead_length {s : State} {a : Addr} {n : Nat} {bytes : List Byte} (h : memRead s a n = .value bytes) :
    bytes.length = n := by
  induction n generalizing a bytes with
  | zero => simp_all
  | succ n ih =>
    rw [memRead_succ, Answer.andThen_eq_value] at h
    obtain ⟨v, -, h⟩ := h
    obtain ⟨vs, hvs, rfl⟩ := Answer.map_eq_value.1 h
    simp [ih hvs]

/-- The address `m` bytes on. -/
theorem addr_add (a : Addr) (m : Nat) : a + BitVec.ofNat 64 (m + 1) = a + 1 + BitVec.ofNat 64 m := by
  rw [BitVec.add_assoc]
  congr 1
  apply BitVec.eq_of_toNat_eq
  simp
  omega

/-- A read of `m + n` bytes is a read of `m` bytes and one of the `n` bytes after them. -/
theorem memRead_add (s : State) (a : Addr) (m n : Nat) :
    memRead s a (m + n) =
      (memRead s a m).andThen fun xs => (memRead s (a + BitVec.ofNat 64 m) n).map fun ys => xs ++ ys := by
  induction m generalizing a with
  | zero =>
    cases h : memRead s a n <;> simp [h]
  | succ m ih =>
    rw [Nat.succ_add, memRead_succ, memRead_succ, ih, addr_add]
    cases byteAnswer s a <;> simp
    cases memRead s (a + 1) m <;> simp
    cases memRead s (a + 1 + BitVec.ofNat 64 m) n <;> simp

/-- A readable buffer is readable in every part, and each part reads as that part of it. -/
theorem memRead_part {s : State} {a : Addr} {bytes : List Byte} (h : memRead s a bytes.length = .value bytes)
    (i n : Nat) (hi : i + n ≤ bytes.length) :
    memRead s (a + BitVec.ofNat 64 i) n = .value ((bytes.drop i).take n) := by
  have e : bytes.length = i + (n + (bytes.length - (i + n))) := by omega
  rw [e, memRead_add, Answer.andThen_eq_value] at h
  obtain ⟨xs, hxs, h⟩ := h
  obtain ⟨ys, hys, hcat⟩ := Answer.map_eq_value.1 h
  rw [memRead_add, Answer.andThen_eq_value] at hys
  obtain ⟨zs, hzs, h'⟩ := hys
  obtain ⟨ws, -, hcat'⟩ := Answer.map_eq_value.1 h'
  have l1 := memRead_length hxs
  have l2 := memRead_length hzs
  rw [hzs, ← hcat, ← hcat']
  simp [l1, l2]

/-- A part of a readable buffer, as a number (R10). -/
theorem readWord_part {s : State} {a : Addr} {bytes : List Byte} (h : memRead s a bytes.length = .value bytes)
    (w i n : Nat) (hi : i + n ≤ bytes.length) :
    readWord s w (a + BitVec.ofNat 64 i) n = .value (leValue w ((bytes.drop i).take n)) := by
  simp [readWord, memRead_part h i n hi]

/-- A read depends on the answers to its bytes alone. -/
theorem memRead_congr {s t : State} {a : Addr} {n : Nat}
    (h : ∀ i < n, byteAnswer t (a + BitVec.ofNat 64 i) = byteAnswer s (a + BitVec.ofNat 64 i)) :
    memRead t a n = memRead s a n := by
  induction n generalizing a with
  | zero => rfl
  | succ n ih =>
    have h0 := h 0 (by omega)
    simp only [BitVec.add_zero] at h0
    rw [memRead_succ, memRead_succ, h0, ih]
    intro i hi
    have := h (i + 1) (by omega)
    rwa [addr_add] at this

/-- A read that one byte answers with a bus error, the others answering, is a bus error (R81). -/
theorem memRead_busError {s : State} {a : Addr} {n : Nat}
    (hall : ∀ i < n, byteAnswer s (a + BitVec.ofNat 64 i) ≠ .noAnswer)
    (hbad : ∃ i < n, byteAnswer s (a + BitVec.ofNat 64 i) = .busError) : memRead s a n = .busError := by
  induction n generalizing a with
  | zero => obtain ⟨i, hi, -⟩ := hbad; omega
  | succ n ih =>
    have h0 := hall 0 (by omega)
    simp only [BitVec.add_zero] at h0
    rw [memRead_succ]
    cases hb : byteAnswer s a with
    | noAnswer => exact absurd hb h0
    | busError => rfl
    | value v =>
      obtain ⟨i, hi, hbe⟩ := hbad
      have hi0 : i ≠ 0 := by
        rintro rfl
        simp [hb] at hbe
      obtain ⟨j, rfl⟩ := Nat.exists_eq_succ_of_ne_zero hi0
      have : memRead s (a + 1) n = .busError := ih
        (fun k hk => by have := hall (k + 1) (by omega); rwa [addr_add] at this)
        ⟨j, by omega, by rwa [Nat.succ_eq_add_one, addr_add] at hbe⟩
      rw [Answer.andThen_value, this, Answer.map_busError]

/-- A byte reads as the memory holds it, where the memory answers. -/
theorem byteAnswer_eq (s : State) (a : Addr) (h : s.silentAt a.toNat = false) :
    byteAnswer s a = match s.mem.lookup a.toNat with | some v => .value v | none => .busError := by
  cases hm : s.mem.lookup a.toNat <;> simp [byteAnswer, h, hm]

/-- The little-endian value of `n` bytes is below `2^(8n)`. -/
theorem leNat_lt (bytes : List Byte) : leNat bytes < 256 ^ bytes.length := by
  induction bytes with
  | nil => simp [leNat]
  | cons v vs ih =>
    have := v.isLt
    simp only [leNat, List.length_cons, Nat.pow_succ]
    omega

end Sys2Proof.Machine
end

