-- ==== Sys2Proof/Laws/Ops.lean ====
section
/-!
SUPPORT. What each shared operation can do, said once: issuing, accepting, completing, error entry, the engine's turn and a
step of the machine.
-/

namespace Sys2Proof.Machine

/-! ### Issuing (30_encoding.md R112) -/

theorem issue_busy {s : State} (h : s.status.busy = true) (k : State → Outcome) : issue s k = .next (overrun s) := by
  simp [issue, h]

theorem issue_idle {s : State} (h : s.status.busy = false) (k : State → Outcome) :
    issue s k = k { s with status := statusCleared s.status } := by
  simp [issue, h]

/-- The caller's contract, spelled out (R87, R89). -/
theorem bufferRefusal_eq_none {s : State} :
    bufferRefusal s = none ↔ s.data.toNat + s.len.toNat ≤ 2 ^ 64 ∧
      s.sideEffectRanges.any (fun r => r.meets s.data.toNat s.len.toNat) = false := by
  unfold bufferRefusal
  split
  · simp; omega
  · split <;> simp_all

theorem acceptBuffer_of_contract {s : State} (h : bufferRefusal s = none) (init : State → State) :
    acceptBuffer s init = .next (init { s with
      status := statusAccepted s.status, ptr := s.data, rem := s.len, raced := false, bufBase := s.data,
      bufLen := s.len, strayed := !inTrueBuffer s.buffers s.data.toNat s.len.toNat }) := by
  simp [acceptBuffer, h]

/-- An accepted command kept the caller's contract. -/
theorem acceptBuffer_eq_next {s t : State} {init : State → State} (h : acceptBuffer s init = .next t) :
    bufferRefusal s = none ∧ t = init { s with
      status := statusAccepted s.status, ptr := s.data, rem := s.len, raced := false, bufBase := s.data,
      bufLen := s.len, strayed := !inTrueBuffer s.buffers s.data.toNat s.len.toNat } := by
  unfold acceptBuffer at h
  split at h
  · cases h
  · rename_i hn
    cases h
    exact ⟨hn, rfl⟩

/-- The caller's contract does not depend on the flags. -/
@[simp] theorem bufferRefusal_status (s : State) (st : Status) :
    bufferRefusal { s with status := st } = bufferRefusal s := rfl

/-- The length check does not depend on the flags. -/
@[simp] theorem lenTooLong_status (s : State) (st : Status) :
    ({ s with status := st } : State).lenTooLong = s.lenTooLong := rfl

/-- `LEN[63:31] != 0` is `LEN >= 2^31` (R272). -/
theorem lenTooLong_iff (s : State) : s.lenTooLong = true ↔ 2 ^ 31 ≤ s.len.toNat := by
  have h1 : (s.len.extractLsb' 31 33).toNat = s.len.toNat / 2 ^ 31 % 2 ^ 33 := by
    simp [BitVec.extractLsb'_toNat, Nat.shiftRight_eq_div_pow]
  have h2 := s.len.isLt
  have h3 : s.len.toNat / 2 ^ 31 % 2 ^ 33 = s.len.toNat / 2 ^ 31 := Nat.mod_eq_of_lt (by omega)
  simp only [State.lenTooLong, bne_iff_ne, ne_eq, BitVec.toNat_eq, h1, h3, BitVec.ofNat_eq_ofNat, BitVec.toNat_ofNat]
  omega

/-! ### Completing and failing (10_state.md R57, 60_exceptions.md R273) -/

/-- Which bytes a caller vouches for (R275). -/
theorem inTrueBuffer_iff {buffers : List Extent} {base n : Nat} :
    inTrueBuffer buffers base n = true ↔
      n = 0 ∨ ∃ e ∈ buffers, e.base ≤ base ∧ base + n ≤ e.base + e.size := by
  simp [inTrueBuffer]

@[simp] theorem inTrueBuffer_zero (buffers : List Extent) (base : Nat) : inTrueBuffer buffers base 0 = true := rfl

/-- The result of a command is its value exactly while the contract on the bytes is kept. -/
theorem resultOpen_eq_false {s : State} : s.resultOpen = false ↔ s.raced = false ∧ s.strayed = false := by
  simp [State.resultOpen]

theorem deliver_eq_complete {s : State} (h : s.resultOpen = false) (v : W64) : deliver v s = complete v s := by
  simp [deliver, h]

/-- Where the contract on the bytes was broken, `RESULT` is free and the rest is as in any completion (R93, R275). -/
theorem deliver_of_open {s : State} (h : s.resultOpen = true) (v : W64) :
    deliver v s = complete (Config.freeValue 64 s.free) { s with free := s.free + 1 } := by
  simp [deliver, h]

@[simp] theorem deliver_status (v : W64) (s : State) : (deliver v s).status = statusCompleted s.status := by
  unfold deliver; split <;> rfl

@[simp] theorem deliver_ie (v : W64) (s : State) : (deliver v s).ie = s.ie := by
  unfold deliver; split <;> rfl

@[simp] theorem deliver_data (v : W64) (s : State) : (deliver v s).data = s.data := by
  unfold deliver; split <;> rfl

@[simp] theorem deliver_len (v : W64) (s : State) : (deliver v s).len = s.len := by
  unfold deliver; split <;> rfl

@[simp] theorem deliver_seed (v : W64) (s : State) : (deliver v s).seed = s.seed := by
  unfold deliver; split <;> rfl

@[simp] theorem deliver_phase (v : W64) (s : State) : (deliver v s).phase = .idle := by
  unfold deliver; split <;> rfl

@[simp] theorem deliver_ptr (v : W64) (s : State) : (deliver v s).ptr = s.ptr := by
  unfold deliver; split <;> rfl

@[simp] theorem deliver_rem (v : W64) (s : State) : (deliver v s).rem = s.rem := by
  unfold deliver; split <;> rfl

@[simp] theorem deliver_nblk (v : W64) (s : State) : (deliver v s).nblk = s.nblk := by
  unfold deliver; split <;> rfl

@[simp] theorem deliver_h32 (v : W64) (s : State) : (deliver v s).h32 = s.h32 := by
  unfold deliver; split <;> rfl

@[simp] theorem deliver_h64 (v : W64) (s : State) : (deliver v s).h64 = s.h64 := by
  unfold deliver; split <;> rfl

@[simp] theorem deliver_a (v : W64) (s : State) : (deliver v s).a = s.a := by
  unfold deliver; split <;> rfl

@[simp] theorem deliver_b (v : W64) (s : State) : (deliver v s).b = s.b := by
  unfold deliver; split <;> rfl

@[simp] theorem deliver_x (v : W64) (s : State) : (deliver v s).x = s.x := by
  unfold deliver; split <;> rfl

@[simp] theorem deliver_y (v : W64) (s : State) : (deliver v s).y = s.y := by
  unfold deliver; split <;> rfl

@[simp] theorem deliver_salt (v : W64) (s : State) : (deliver v s).salt = s.salt := by
  unfold deliver; split <;> rfl

@[simp] theorem deliver_rst (v : W64) (s : State) : (deliver v s).rst = s.rst := by
  unfold deliver; split <;> rfl

@[simp] theorem deliver_mem (v : W64) (s : State) : (deliver v s).mem = s.mem := by
  unfold deliver; split <;> rfl

@[simp] theorem deliver_cfg (v : W64) (s : State) : (deliver v s).cfg = s.cfg := by
  unfold deliver; split <;> rfl

@[simp] theorem deliver_plat (v : W64) (s : State) : (deliver v s).plat = s.plat := by
  unfold deliver; split <;> rfl

@[simp] theorem deliver_inbox (v : W64) (s : State) : (deliver v s).inbox = s.inbox := by
  unfold deliver; split <;> rfl

@[simp] theorem deliver_rdata (v : W64) (s : State) : (deliver v s).rdata = s.rdata := by
  unfold deliver; split <;> rfl

@[simp] theorem deliver_bufBase (v : W64) (s : State) : (deliver v s).bufBase = s.bufBase := by
  unfold deliver; split <;> rfl

@[simp] theorem deliver_bufLen (v : W64) (s : State) : (deliver v s).bufLen = s.bufLen := by
  unfold deliver; split <;> rfl

@[simp] theorem deliver_raced (v : W64) (s : State) : (deliver v s).raced = s.raced := by
  unfold deliver; split <;> rfl

@[simp] theorem deliver_buffers (v : W64) (s : State) : (deliver v s).buffers = s.buffers := by
  unfold deliver; split <;> rfl

@[simp] theorem deliver_strayed (v : W64) (s : State) : (deliver v s).strayed = s.strayed := by
  unfold deliver; split <;> rfl

@[simp] theorem raiseBusError_status (s : State) : (raiseBusError s).status = statusRaised .busError s.status := rfl
@[simp] theorem raiseBusError_ie (s : State) : (raiseBusError s).ie = s.ie := rfl
@[simp] theorem raiseBusError_data (s : State) : (raiseBusError s).data = s.data := rfl
@[simp] theorem raiseBusError_len (s : State) : (raiseBusError s).len = s.len := rfl
@[simp] theorem raiseBusError_seed (s : State) : (raiseBusError s).seed = s.seed := rfl
@[simp] theorem raiseBusError_result (s : State) : (raiseBusError s).result = s.result := rfl
@[simp] theorem raiseBusError_phase (s : State) : (raiseBusError s).phase = .idle := rfl
@[simp] theorem raiseBusError_ptr (s : State) : (raiseBusError s).ptr = Config.freeValue 64 s.free := rfl
@[simp] theorem raiseBusError_rem (s : State) : (raiseBusError s).rem = Config.freeValue 64 (s.free + 1) := rfl
@[simp] theorem raiseBusError_nblk (s : State) : (raiseBusError s).nblk = Config.freeValue 64 (s.free + 2) := rfl
@[simp] theorem raiseBusError_h32 (s : State) : (raiseBusError s).h32 = Config.freeValue 32 (s.free + 3) := rfl
@[simp] theorem raiseBusError_h64 (s : State) : (raiseBusError s).h64 = Config.freeValue 64 (s.free + 4) := rfl
@[simp] theorem raiseBusError_a (s : State) : (raiseBusError s).a = Config.freeValue 64 (s.free + 5) := rfl
@[simp] theorem raiseBusError_b (s : State) : (raiseBusError s).b = Config.freeValue 64 (s.free + 6) := rfl
@[simp] theorem raiseBusError_x (s : State) : (raiseBusError s).x = Config.freeValue 128 (s.free + 7) := rfl
@[simp] theorem raiseBusError_y (s : State) : (raiseBusError s).y = Config.freeValue 128 (s.free + 8) := rfl
@[simp] theorem raiseBusError_salt (s : State) : (raiseBusError s).salt = Config.freeValue 128 (s.free + 9) := rfl
@[simp] theorem raiseBusError_rst (s : State) : (raiseBusError s).rst = s.rst := rfl
@[simp] theorem raiseBusError_mem (s : State) : (raiseBusError s).mem = s.mem := rfl
@[simp] theorem raiseBusError_cfg (s : State) : (raiseBusError s).cfg = s.cfg := rfl
@[simp] theorem raiseBusError_plat (s : State) : (raiseBusError s).plat = s.plat := rfl
@[simp] theorem raiseBusError_buffers (s : State) : (raiseBusError s).buffers = s.buffers := rfl
@[simp] theorem raiseBusError_strayed (s : State) : (raiseBusError s).strayed = s.strayed := rfl
@[simp] theorem raiseBusError_inbox (s : State) : (raiseBusError s).inbox = s.inbox := rfl
@[simp] theorem raiseBusError_rdata (s : State) : (raiseBusError s).rdata = s.rdata := rfl
@[simp] theorem raiseBusError_bufBase (s : State) : (raiseBusError s).bufBase = s.bufBase := rfl
@[simp] theorem raiseBusError_bufLen (s : State) : (raiseBusError s).bufLen = s.bufLen := rfl
@[simp] theorem raiseBusError_raced (s : State) : (raiseBusError s).raced = s.raced := rfl
@[simp] theorem raiseBusError_free (s : State) : (raiseBusError s).free = s.free + 10 := rfl

/-! ### The engine's turn (10_state.md R30) -/

theorem engineTurn_of_idle {s : State} (h : s.status.busy = false) : engineTurn s = s := by
  simp [engineTurn, h]

theorem engineTurn_of_reset {s : State} (h : s.rst = true) : engineTurn s = s := by
  simp [engineTurn, h]

theorem engineTurn_of_busy {s : State} (h : s.status.busy = true) (hr : s.rst = false) : engineTurn s = phaseStep s := by
  simp [engineTurn, h, hr]

/-- A property of a state that every ending or continuing engine step keeps is kept by `onAnswer`. -/
theorem onAnswer_induct {α : Type} {P : State → Prop} {s : State} {r : Answer α} {k : α → State}
    (hv : ∀ v, r = .value v → P (k v)) (hb : r = .busError → P (raiseBusError s)) (hn : r = .noAnswer → P s) :
    P (onAnswer s r k) := by
  cases r with
  | value v => exact hv v rfl
  | busError => exact hb rfl
  | noAnswer => exact hn rfl

/-- A field that an engine step's effect and `BusError` leave alone is left alone by the step. -/
theorem onAnswer_field {α β : Type} (f : State → β) {s : State} {r : Answer α} {k : α → State}
    (hv : ∀ v, f (k v) = f s) (hb : f (raiseBusError s) = f s) : f (onAnswer s r k) = f s :=
  onAnswer_induct (P := fun t => f t = f s) (fun v _ => hv v) (fun _ => hb) (fun _ => rfl)

/-- A field that no phase's step touches is not touched by the engine: the four kinds of step are a step on an answer, a
completion, `FH_INIT` and the combine, and a choice among them. -/
theorem engineTurn_field {β : Type} (f : State → β) (s : State)
    (hb : f (raiseBusError s) = f s)
    (hdone : ∀ v g h, f (deliver v { s with h32 := g, h64 := h }) = f s)
    (hint : ∀ ph p r n g h a b x y z, f { s with
      phase := ph, ptr := p, rem := r, nblk := n, h32 := g, h64 := h, a := a, b := b, x := x, y := y, salt := z } = f s) :
    f (engineTurn s) = f s := by
  unfold engineTurn
  split
  · unfold phaseStep
    split
    · rfl
    · unfold m32Body
      split
      · exact onAnswer_field f (fun _ => hint _ _ _ _ _ _ _ _ _ _ _) hb
      · exact onAnswer_field f (fun _ => hint _ _ _ _ _ _ _ _ _ _ _) hb
    · exact hdone _ _ s.h64
    · unfold m64Body
      split
      · exact onAnswer_field f (fun _ => hint _ _ _ _ _ _ _ _ _ _ _) hb
      · exact onAnswer_field f (fun _ => hint _ _ _ _ _ _ _ _ _ _ _) hb
    · exact hdone _ s.h32 _
    · exact hint _ _ _ _ _ _ _ _ _ _ _
    · unfold fhOddStep
      split
      · exact onAnswer_field f (fun _ => hint _ _ _ _ _ _ _ _ _ _ _) hb
      · exact hint _ _ _ _ _ _ _ _ _ _ _
    · unfold fhBlkStep
      split
      · exact onAnswer_field f (fun _ => hint _ _ _ _ _ _ _ _ _ _ _) hb
      · split
        · exact onAnswer_field f (fun _ => hint _ _ _ _ _ _ _ _ _ _ _) hb
        · exact hint _ _ _ _ _ _ _ _ _ _ _
    · exact onAnswer_field f (fun _ => hint _ _ _ _ _ _ _ _ _ _ _) hb
    · exact hdone _ s.h32 s.h64
    · exact hdone _ s.h32 s.h64
    · exact hdone _ s.h32 s.h64
    · exact hdone _ s.h32 s.h64
  · rfl

/-- The engine does not touch the events that wait. -/
@[simp] theorem engineTurn_inbox (s : State) : (engineTurn s).inbox = s.inbox :=
  engineTurn_field State.inbox s rfl (fun _ _ _ => by simp) (fun _ _ _ _ _ _ _ _ _ _ _ => rfl)

/-! ### Steps and runs (10_state.md R30, 70_reset_and_hazards.md R320) -/

theorem step_of_empty {s : State} (h : s.inbox = []) : step s = .next (engineTurn s) := by
  simp [step, h]

theorem step_of_event {s : State} {e : Event} {rest : List Event} (h : s.inbox = e :: rest) :
    step s = takeEvent e { s with inbox := rest } := by
  simp [step, h]

/-- `k` turns of the engine. -/
def engineRun : Nat → State → State
  | 0, s => s
  | k + 1, s => engineRun k (engineTurn s)

@[simp] theorem engineRun_zero (s : State) : engineRun 0 s = s := rfl

theorem engineRun_succ (k : Nat) (s : State) : engineRun (k + 1) s = engineRun k (engineTurn s) := rfl

theorem engineRun_add (j k : Nat) (s : State) : engineRun (j + k) s = engineRun k (engineRun j s) := by
  induction j generalizing s with
  | zero => simp
  | succ j ih => rw [Nat.succ_add, engineRun_succ, ih, engineRun_succ]

/-- When no event waits, a run of the machine is a run of the engine. -/
theorem run_of_empty {s : State} (h : s.inbox = []) (k : Nat) : Sys2Proof.core.run k s = .next (engineRun k s) := by
  induction k generalizing s with
  | zero => rfl
  | succ k ih =>
    have hs : Sys2Proof.core.step s = .next (engineTurn s) := step_of_empty h
    simp only [Host.Core.run, hs]
    exact ih (by simpa using h)

/-- An idle engine stays as it is. -/
theorem engineRun_of_idle {s : State} (h : s.status.busy = false) (k : Nat) : engineRun k s = s := by
  induction k with
  | zero => rfl
  | succ k ih => rw [engineRun_succ, engineTurn_of_idle h, ih]

/-- All a step can do: one lemma to take a step apart. -/
theorem step_cases {s t : State} (h : step s = .next t) :
    (s.inbox = [] ∧ t = engineTurn s) ∨
      ∃ e rest, s.inbox = e :: rest ∧ takeEvent e { s with inbox := rest } = .next t := by
  cases hi : s.inbox with
  | nil =>
    rw [step_of_empty hi] at h
    cases h
    exact .inl ⟨rfl, rfl⟩
  | cons e rest => exact .inr ⟨e, rest, rfl, by rwa [step_of_event hi] at h⟩

/-- The shape of an access with a defined effect (10_state.md R39). -/
theorem accessDefined_iff (o : BitVec 8) (w : Nat) : accessDefined o w = true ↔ w = 8 ∧ o.toNat % 8 = 0 := by
  simp [accessDefined]

/-- A host access has an effect exactly when reset is not asserted and its shape is defined. -/
theorem guardAccess_eq_next {s t : State} {o : BitVec 8} {w : Nat} {r : Outcome} :
    guardAccess s o w r = .next t ↔ s.rst = false ∧ w = 8 ∧ o.toNat % 8 = 0 ∧ r = .next t := by
  unfold guardAccess
  cases hr : s.rst with
  | true => simp
  | false =>
    rw [if_neg (by simp)]
    cases ha : accessDefined o w with
    | true =>
      have := (accessDefined_iff o w).1 ha
      simp [this.1, this.2]
    | false =>
      have : ¬(w = 8 ∧ o.toNat % 8 = 0) := by rw [← accessDefined_iff]; simp [ha]
      simp only [Bool.false_eq_true, if_false, reduceCtorEq, true_and, false_iff]
      tauto

/-- Only offset 0 is `CMD` (10_state.md R31). -/
theorem registerAt_eq_cmd {o : BitVec 8} : registerAt o = .cmd ↔ o = 0x00 := by
  unfold registerAt
  constructor
  · intro h
    by_contra hne
    rw [if_neg hne] at h
    revert h
    repeat' split
    all_goals simp
  · rintro rfl
    rfl

/-- All an event can do (10_state.md R30). -/
theorem takeEvent_cases {e : Event} {s t : State} (h : takeEvent e s = .next t) :
    (e = .engine ∧ t = engineTurn s) ∨
    (∃ o, e = .read o 8 ∧ s.rst = false ∧ o.toNat % 8 = 0 ∧ t = hostRead s o) ∨
    (∃ w, e = cmdWrite w ∧ s.rst = false ∧ issueWord w s = .next t) ∨
    (∃ o v, e = .write o 8 v ∧ s.rst = false ∧ o.toNat % 8 = 0 ∧ registerAt o ≠ .cmd ∧
      t = writeRegister s (registerAt o) v) ∨
    (∃ p v, e = .poke p v ∧ t = pokeByte p v s) ∨
    (∃ p, e = .unmap p ∧ t = unmapByte p s) ∨
    (∃ bs, e = .declare bs ∧ t = declareBuffers bs s) ∨
    (e = .assertReset ∧ t = { resetEngine s with rst := true }) ∨
    (e = .releaseReset ∧ t = { s with rst := false }) := by
  cases e with
  | engine => cases h; exact .inl ⟨rfl, rfl⟩
  | read o w =>
    obtain ⟨hr, hw, ho, h⟩ := guardAccess_eq_next.1 h
    cases h
    exact .inr (.inl ⟨o, by rw [hw], hr, ho, rfl⟩)
  | write o w v =>
    obtain ⟨hr, hw, ho, h⟩ := guardAccess_eq_next.1 h
    unfold hostWrite at h
    split at h
    · rename_i hc
      exact .inr (.inr (.inl ⟨v, by rw [registerAt_eq_cmd.1 hc, hw]; rfl, hr, h⟩))
    · rename_i hc
      cases h
      exact .inr (.inr (.inr (.inl ⟨o, v, by rw [hw], hr, ho, hc, rfl⟩)))
  | poke p v => cases h; exact .inr (.inr (.inr (.inr (.inl ⟨p, v, rfl, rfl⟩))))
  | unmap p => cases h; exact .inr (.inr (.inr (.inr (.inr (.inl ⟨p, rfl, rfl⟩)))))
  | declare bs => cases h; exact .inr (.inr (.inr (.inr (.inr (.inr (.inl ⟨bs, rfl, rfl⟩))))))
  | assertReset => cases h; exact .inr (.inr (.inr (.inr (.inr (.inr (.inr (.inl ⟨rfl, rfl⟩)))))))
  | releaseReset => cases h; exact .inr (.inr (.inr (.inr (.inr (.inr (.inr (.inr ⟨rfl, rfl⟩)))))))

end Sys2Proof.Machine
end

