-- ==== Sys2Proof/Laws/PerInstr.lean ====
section
/-!
SUPPORT. One lemma per command and family of statements about commands as syntax.
-/

namespace Sys2Proof.Laws

/-- The word and the fields of a command agree, and the command is well-formed (30_encoding.md R110, R111). -/
def FieldsAgree.Statement (i : Instr) : Prop :=
  fieldsOf (encode i) = i.fields ∧ wordOf i.fields = encode i ∧ i.wellFormed = true

theorem FieldsAgree.mix32 : FieldsAgree.Statement .mix32 := ⟨by decide, by decide, by decide⟩

theorem FieldsAgree.mix64a : FieldsAgree.Statement .mix64a := ⟨by decide, by decide, by decide⟩

theorem FieldsAgree.fh64 : FieldsAgree.Statement .fh64 := ⟨by decide, by decide, by decide⟩

theorem FieldsAgree.fin32 : FieldsAgree.Statement .fin32 := ⟨by decide, by decide, by decide⟩

theorem FieldsAgree.fin64 : FieldsAgree.Statement .fin64 := ⟨by decide, by decide, by decide⟩

theorem FieldsAgree.finfh : FieldsAgree.Statement .finfh := ⟨by decide, by decide, by decide⟩

end Sys2Proof.Laws
end

