-- ==== Sys2Proof/Laws/Script.lean ====
section
/-!
SUPPORT. Laws of scripts: what a turn does, and how a run divides (30_encoding.md R116, R117).
-/

namespace Sys2Proof.Machine

theorem hostTurn_of_finished {p : Script} (h : p.lines = []) (s : State) : hostTurn p s = .next (p, s) := by
  simp [hostTurn, h]

/-- A line that looks at a value does no step of the machine. -/
theorem hostTurn_of_test {p : Script} {name : ValueName} {bit : Nat} {rest : List Line}
    (h : p.lines = .errorIf name bit :: rest) (s : State) :
    hostTurn p s = .next (afterLine p (.errorIf name bit) rest 0, s) := by
  simp [hostTurn, h, lineEvent]

/-- A line that is a host step: the machine takes the event, the host the value returned. -/
theorem hostTurn_of_event {p : Script} {l : Line} {rest : List Line} {e : Event} {s t : State} (h : p.lines = l :: rest)
    (he : lineEvent l = some e) (ht : takeEvent e s = .next t) :
    hostTurn p s = .next (afterLine p l rest t.rdata, t) := by
  simp [hostTurn, h, he, ht]

@[simp] theorem takeTurn_host (p : Script) (s : State) : takeTurn .host p s = hostTurn p s := rfl

@[simp] theorem takeTurn_engine (p : Script) (s : State) : takeTurn (.world .engine) p s = .next (p, engineTurn s) := rfl

@[simp] theorem runTurns_nil (p : Script) (s : State) : runTurns [] p s = .next (p, s) := rfl

theorem runTurns_cons {x : Turn} {p q : Script} {s t : State} (h : takeTurn x p s = .next (q, t)) (xs : List Turn) :
    runTurns (x :: xs) p s = runTurns xs q t := by
  simp [runTurns, h]

/-- A run divides at any turn. -/
theorem runTurns_append {xs : List Turn} {p q : Script} {s t : State} (h : runTurns xs p s = .next (q, t))
    (ys : List Turn) : runTurns (xs ++ ys) p s = runTurns ys q t := by
  induction xs generalizing p s with
  | nil =>
    cases h
    rfl
  | cons x xs ih =>
    cases hx : takeTurn x p s with
    | next r =>
      rw [List.cons_append, runTurns_cons hx]
      exact ih (by rwa [runTurns_cons hx] at h)
    | fault f => simp [runTurns, hx] at h
    | refused r => simp [runTurns, hx] at h

/-- A host write of a register other than `CMD`, out of reset. -/
theorem takeEvent_write {s : State} (hr : s.rst = false) {r : Register} (hc : r ≠ .cmd) (v : W64) :
    takeEvent (.write (offsetOf r) 8 v) s = .next (writeRegister s r v) := by
  cases r <;> first | exact absurd rfl hc | simp [takeEvent, guardAccess, hr, accessDefined, hostWrite, registerAt, offsetOf]

/-- A host read of a register, out of reset. -/
theorem takeEvent_read {s : State} (hr : s.rst = false) (r : Register) :
    takeEvent (.read (offsetOf r) 8) s = .next { s with rdata := readRegister s r } := by
  cases r <;> simp [takeEvent, guardAccess, hr, accessDefined, hostRead, registerAt, offsetOf]

/-- The write of a command's word, out of reset, is the command's meaning. -/
theorem takeEvent_command {s : State} (hr : s.rst = false) (i : Instr) :
    takeEvent (.write (offsetOf .cmd) 8 (encode i)) s = exec i s := by
  have hd : decode (encode i) = .ok i := by cases i <;> decide
  have hx : s.status.busy = true → .next (overrun s) = exec i s := by
    intro hb
    cases i <;>
      simp [exec, execMix32, execMix64a, execFh64, execFin32, execFin64, execFinfh, issue, hb]
  simp only [takeEvent, guardAccess, hr, accessDefined, hostWrite, registerAt, offsetOf, issueWord, hd]
  cases hb : s.status.busy with
  | true => simpa [hb] using hx hb
  | false => simp

end Sys2Proof.Machine
end

