-- ==== Sys2Proof/Tests/Slice0.lean ====
section
/-!
SUPPORT. The model's own tests. Expected values come from the encodings of 30_encoding.md, the worked traces R148, R168,
R190, R225, the examples of R252 to R254 and the issue table of 95_test_vectors.md. For every statement that has
hypotheses, a witness that meets them.
-/

namespace Sys2Proof.Tests

open Sys2Proof Sys2Proof.Machine

/-! ### Well-formedness and decoding -/

theorem test_wf_reserved_high_bits : (CommandFields.mk 1 0 0 1).wellFormed = false := by decide

theorem test_wf_reserved_bit_2 : (CommandFields.mk 1 1 0 0).wellFormed = false := by decide

theorem test_wf_no_algorithm : (CommandFields.mk 0 0 1 0).wellFormed = false := by decide

/-- The words of R110 and R111, field by field: 60 reserved bits, `FO`, a reserved bit, `ALG`. -/
theorem test_decode_mix32 : decode (0#60 ++ 0b0#1 ++ 0b0#1 ++ 0b01#2) = .ok .mix32 := by decide

theorem test_decode_mix64a : decode (0#60 ++ 0b0#1 ++ 0b0#1 ++ 0b10#2) = .ok .mix64a := by decide

theorem test_decode_fh64 : decode (0#60 ++ 0b0#1 ++ 0b0#1 ++ 0b11#2) = .ok .fh64 := by decide

theorem test_decode_fin32 : decode (0#60 ++ 0b1#1 ++ 0b0#1 ++ 0b01#2) = .ok .fin32 := by decide

theorem test_decode_fin64 : decode (0#60 ++ 0b1#1 ++ 0b0#1 ++ 0b10#2) = .ok .fin64 := by decide

theorem test_decode_finfh : decode (0#60 ++ 0b1#1 ++ 0b0#1 ++ 0b11#2) = .ok .finfh := by decide

/-- The words of V-IS-1 to V-IS-7 (R114). -/
theorem test_decode_illegal :
    decode 0x0 = .error .noAlgorithm ∧ decode 0x8 = .error .noAlgorithm ∧ decode 0x4 = .error .reservedBit2 ∧
      decode 0x7 = .error .reservedBit2 ∧ decode 0xF = .error .reservedBit2 ∧
      decode 0x11 = .error .reservedHighBits ∧ decode 0x8000000000000003 = .error .reservedHighBits := by decide

/-! ### Helpers -/

/-- The answer is a next state with the property. -/
def isNext (o : Outcome) (p : State → Bool) : Bool :=
  match o with
  | .next t => p t
  | .fault _ => false
  | .refused _ => false

/-- A memory that holds the bytes from an address on, and nothing else. -/
def bytesAt (base : Nat) (bytes : List Byte) : Memory := bytes.zipIdx.map fun q => (base + q.2, q.1)

/-- The reset state with operands and, at the odd address 0x10003, a true buffer of readable bytes. -/
def loaded (len seed : W64) (bytes : List Byte) : State :=
  { State.reset with
    data := 0x10003, len := len, seed := seed, mem := bytesAt 0x10003 bytes, buffers := [⟨0x10003, bytes.length⟩] }

/-- A running command in a phase, with its cursor at 0x10003. -/
def running (ph : Phase) (rem nblk : W64) (bytes : List Byte) : State :=
  { loaded rem 0 bytes with
    status := Status.running false, phase := ph, ptr := 0x10003, rem := rem, nblk := nblk, bufBase := 0x10003
    bufLen := BitVec.ofNat 64 bytes.length }

/-- `0, 1, ..., n - 1`. -/
def ramp (n : Nat) : List Byte := (List.range n).map fun i => BitVec.ofNat 8 i

/-- `"MapD"` (R140). -/
def mapD : List Byte := [0x4d, 0x61, 0x70, 0x44]

/-- A state with one event waiting. -/
def facing (e : Event) : State := { State.reset with inbox := [e] }

/-! ### One step of each command -/

/-- R148: the issue, `LEN = 9`, `SEED = 0x2a`. -/
theorem test_mix32_issue :
    isNext (exec .mix32 (loaded 9 0x2a [])) (fun t => t.h32 == 0xfbc9e401 && t.phase == .m32Body && t.status.busy) = true := by
  decide

/-- R148: the word step on `"MapD"`. -/
theorem test_mix32_word :
    (engineTurn { running .m32Body 9 0 mapD with h32 := 0xfbc9e401 }).h32 = 0x9ea33369 := by decide

/-- R168: the issue, `LEN = 11`, `SEED = 0x2a`. -/
theorem test_mix64a_issue :
    isNext (exec .mix64a (loaded 11 0x2a [])) (fun t => t.h64 == 0x89133354f205094d && t.phase == .m64Body) = true := by
  decide

/-- R168: the tail step on `65 21 21`. -/
theorem test_mix64a_tail :
    (engineTurn { running .m64Body 3 0 [0x65, 0x21, 0x21] with h64 := 0xbb33b9e1705b9135 }).h64 = 0x60093e5c83316e90 := by
  decide

/-- R190 (a): the scalar tail on `"MapD"`. -/
theorem test_fh64_tail : (engineTurn { running .fhTail 4 0 mapD with b := 4 }).a = 0x8d6f87eededb9d0a := by decide

/-- R225: the `FH_INIT` step, `LEN = 33`, `SEED = 0`. -/
theorem test_fh64_init :
    (engineTurn { running .fhInit 33 0 [] with a := 0, b := 33 }).y = 0x8ffadc6ee011a9c8e1202c8ad421127d := by decide

/-- R252: `SEED = 1`. -/
theorem test_fin32 :
    isNext (exec .fin32 (loaded 0xffffffffffffffff 1 [])) (fun t => (engineTurn t).result == 0x8f5a8d63) = true := by decide

/-- R253: `SEED = 1`. -/
theorem test_fin64 :
    isNext (exec .fin64 (loaded 0 1 [])) (fun t => (engineTurn t).result == 0xc6a4a7935bd064dc) = true := by decide

/-- R254: `SEED = 0x2a`, `LEN = 5`. -/
theorem test_finfh :
    isNext (exec .finfh (loaded 5 0x2a [])) (fun t => (engineTurn t).result == 0x33e7ed859a2443b7) = true := by decide

/-- A command placed by `withFetchWord` is the first thing that runs after reset (log entry 1). -/
theorem test_placed_word :
    isNext (step (State.reset.withFetchWord 64 0xA)) (fun t => t.phase == .fuOnly64 && statusWord t.status == 1) = true := by
  decide

/-- V-IS-10, V-IS-15, V-IS-16: `BadLength`, illegal before bad length, overrun. -/
theorem test_issue_errors :
    isNext (exec .mix64a (loaded 0xffffffffffffffff 0 [])) (fun t => statusWord t.status == 0x24) = true ∧
      isNext (issueWord 0x11 (loaded 0x80000000 0 [])) (fun t => statusWord t.status == 0x14) = true ∧
      isNext (issueWord 0x11 (running .fuOnly32 0 0 [])) (fun t => statusWord t.status == 0x09) = true := by
  decide

/-! ### Witnesses: the hypotheses of the statements can be met -/

/-- For StepRunsTheDecodedCommand. -/
theorem test_witness_step_runs :
    (facing (cmdWrite 0xB)).inbox = [cmdWrite 0xB] ∧ (facing (cmdWrite 0xB)).rst = false ∧ decode 0xB = .ok .finfh := by
  decide

/-- For OverrunDropsTheWord. -/
theorem test_witness_busy_engine :
    let s := { running .m32Fin 0 0 [] with inbox := [cmdWrite 0] }
    s.status.busy = true ∧ s.inbox = [cmdWrite 0] ∧ s.rst = false := by decide

/-- For IllegalWordIsReported. -/
theorem test_witness_illegal_word :
    let s := facing (cmdWrite 0xC)
    s.inbox = [cmdWrite 0xC] ∧ s.rst = false ∧ s.status.busy = false ∧ s.phase = .idle ∧
      encode .mix32 ≠ 0xC ∧ encode .mix64a ≠ 0xC ∧ encode .fh64 ≠ 0xC ∧ encode .fin32 ≠ 0xC ∧ encode .fin64 ≠ 0xC ∧
      encode .finfh ≠ 0xC := by decide

/-- For OverlongInt32LengthIsReported. -/
theorem test_witness_overlong_length :
    let s := loaded 0x80000000 0 []
    s.status.busy = false ∧ s.phase = .idle ∧ 2 ^ 31 ≤ s.len.toNat ∧
      isNext (exec .finfh s) (fun t => t.status.ecode == .none) = true := by decide

/-- For Mix32IsAccepted and Mix64aIsAccepted: the longest legal length of `MIX32` and `MIX64A`, ending at the top of the address space. -/
theorem test_witness_accepted :
    let s := { loaded 0x7fffffff 0 [] with data := 0xffffffff80000001 }
    s.status.busy = false ∧ s.len.toNat < 2 ^ 31 ∧ s.keepsContract := by
  refine ⟨by decide, by decide, by decide, by decide⟩

/-- For Fh64IsAccepted: `LEN = 32` and `LEN = 33` (R181). -/
theorem test_witness_fh64_accepted :
    (loaded 32 0 []).status.busy = false ∧ (loaded 32 0 []).keepsContract ∧ (loaded 33 0 []).keepsContract := by
  refine ⟨by decide, ⟨by decide, by decide⟩, ⟨by decide, by decide⟩⟩

/-- For FinalizeCommandsDeliver. -/
theorem test_witness_finalize : State.reset.status.busy = false ∧ State.reset.rst = false := by decide

/-- For BrokenContractIsRefused: one byte too far, and the last byte of the address space over memory with side effects. -/
theorem test_witness_broken_contract :
    let s := { loaded 2 0 [] with data := 0xffffffffffffffff }
    let p := { loaded 1 0 [] with
      data := 0xffffffffffffffff, plat := { regions := [⟨2 ^ 64 - 1, 1, .sideEffect⟩], regsMapped := true } }
    s.status.busy = false ∧ 2 ^ 64 < s.data.toNat + s.len.toNat ∧ s.len.toNat < 2 ^ 31 ∧
      p.status.busy = false ∧ p.data.toNat + p.len.toNat ≤ 2 ^ 64 ∧
      ∃ r ∈ p.sideEffectRanges, r.meets p.data.toNat p.len.toNat = true := by decide

/-- For IssueFrame. -/
theorem test_witness_issue_frame : isNext (exec .mix32 (loaded 4 0 mapD)) (fun t => t.mem == bytesAt 0x10003 mapD) = true := by
  decide

/-- For Mix32WordStep. -/
theorem test_witness_mix32_word :
    let s := running .m32Body 4 0 mapD
    s.status.busy = true ∧ s.rst = false ∧ s.phase = .m32Body ∧ 4 ≤ s.rem.toNat ∧
      readWord s 32 s.ptr 4 = .value 0x4470614d := by decide

/-- For Mix32TailStep. -/
theorem test_witness_mix32_tail :
    let s := running .m32Body 3 0 [1, 2, 3]
    s.status.busy = true ∧ s.rst = false ∧ s.phase = .m32Body ∧ s.rem.toNat < 4 ∧
      memRead s s.ptr s.rem.toNat = .value [1, 2, 3] ∧ memRead (running .m32Body 0 0 []) 0x10003 0 = .value [] ∧
      memRead (running .m32Body 1 0 [1]) 0x10003 1 = .value [1] ∧
      memRead (running .m32Body 2 0 [1, 2]) 0x10003 2 = .value [1, 2] := by decide

/-- For Mix64aWordStep. -/
theorem test_witness_mix64a_word :
    let s := running .m64Body 8 0 (ramp 8)
    s.status.busy = true ∧ s.rst = false ∧ s.phase = .m64Body ∧ 8 ≤ s.rem.toNat ∧
      readWord s 64 s.ptr 8 = .value 0x0706050403020100 := by decide

/-- For Mix64aTailStep. -/
theorem test_witness_mix64a_tail :
    let s := running .m64Body 7 0 (ramp 7)
    s.status.busy = true ∧ s.rst = false ∧ s.phase = .m64Body ∧ s.rem.toNat < 8 ∧
      memRead s s.ptr s.rem.toNat = .value (ramp 7) ∧ memRead (running .m64Body 0 0 []) 0x10003 0 = .value [] := by decide

/-- For FinishingSteps. -/
theorem test_witness_finishing :
    let s := running .m32Fin 0 0 []
    s.status.busy = true ∧ s.rst = false ∧ s.raced = false ∧ s.strayed = false ∧ s.phase = .m32Fin ∧
      (running .m64Fin 0 0 []).phase = .m64Fin ∧ (running .fhFin 0 0 []).phase = .fhFin := by decide

/-- For FhInitStep. -/
theorem test_witness_fh_init :
    let s := running .fhInit 33 0 []
    s.status.busy = true ∧ s.rst = false ∧ s.phase = .fhInit := by decide

/-- For FhOddStep. -/
theorem test_witness_fh_odd :
    let s := running .fhOdd 0 3 (ramp 16)
    s.status.busy = true ∧ s.rst = false ∧ s.phase = .fhOdd ∧ s.nblk.toNat % 2 = 1 ∧
      readWord s 128 s.ptr 16 = .value 0x0f0e0d0c0b0a09080706050403020100 ∧
      (running .fhOdd 1 2 []).nblk.toNat % 2 = 0 := by decide

/-- For FhBlkStep. -/
theorem test_witness_fh_blk :
    let s := running .fhBlk 0 8 (ramp 128)
    s.status.busy = true ∧ s.rst = false ∧ s.phase = .fhBlk ∧ 8 ≤ s.nblk.toNat ∧
      memRead s s.ptr 128 = .value (ramp 128) ∧
      2 ≤ (running .fhBlk 0 6 (ramp 32)).nblk.toNat ∧ (running .fhBlk 0 6 (ramp 32)).nblk.toNat < 8 ∧
      memRead (running .fhBlk 0 2 (ramp 32)) 0x10003 32 = .value (ramp 32) ∧ (running .fhBlk 0 0 []).nblk = 0 := by
  decide +kernel

/-- For FhTailStep: every bracket of R183 at its ends. -/
theorem test_witness_fh_tail :
    ∀ r ∈ [0, 1, 8, 9, 16, 17, 24, 25, 32],
      let s := running .fhTail (BitVec.ofNat 64 r) 0 (ramp r)
      s.status.busy = true ∧ s.rst = false ∧ s.phase = .fhTail ∧ s.rem.toNat ≤ 32 ∧
        memRead s s.ptr s.rem.toNat = .value (ramp r) := by decide

/-- For DefaultBlockFunctions. -/
theorem test_witness_default_functions :
    let c := State.reset.cfg
    c.initChoice = .specDefault ∧ c.oddChoice = .specDefault ∧ c.bulkChoice = .specDefault ∧
      c.pairChoice = .specDefault ∧ c.combChoice = .specDefault := by decide

/-- For EngineFrame: the engine idle by each of its three causes (R30, R56, R310). -/
theorem test_witness_engine_at_rest :
    State.reset.status.busy = false ∧ State.reset.phase = .idle ∧ { State.reset with rst := true }.rst = true := by decide

/-- For ResultChangesOnlyAtCompletion. -/
theorem test_witness_result_changes :
    isNext (step { running .m64Fin 0 0 [] with h64 := 1 }) (fun t => t.result != 0) = true := by decide

/-- For BusErrorEndsTheCommand: the buffer ends one byte before the word does. -/
theorem test_witness_bus_error :
    let s := running .m32Body 4 0 [1, 2, 3]
    s.status.busy = true ∧ s.rst = false ∧ (s.phase = .fhTail → s.rem.toNat ≤ 32) ∧
      (∀ i < s.stepReads, byteAnswer s (s.ptr + BitVec.ofNat 64 i) ≠ .noAnswer) ∧
      ∃ i < s.stepReads, byteAnswer s (s.ptr + BitVec.ofNat 64 i) = .busError := by decide

/-- For SilentMemoryHoldsTheEngine: the last byte of a tail of 32 bytes is in silent memory. -/
theorem test_witness_silent :
    let s := { running .fhTail 32 0 (ramp 31) with plat := { regions := [⟨0x10022, 1, .silent⟩], regsMapped := false } }
    (s.phase = .fhTail → s.rem.toNat ≤ 32) ∧
      (∀ i < s.stepReads, byteAnswer s (s.ptr + BitVec.ofNat 64 i) ≠ .busError) ∧
      ∃ i < s.stepReads, byteAnswer s (s.ptr + BitVec.ofNat 64 i) = .noAnswer := by decide

/-- A running `MIX32` with one byte to read. -/
def oneByte : State := running .m32Body 1 0 [7]

/-- For StepKeepsStatusInv. -/
theorem test_witness_status_inv : StatusInv oneByte where
  busy_iff := by decide
  not_both := by decide
  busy_clear := by decide
  ecode_iff := by decide
  reset_held := by decide

/-- For StepKeepsCursorInv. -/
theorem test_witness_cursor_inv : CursorInv oneByte where
  no_wrap := by decide
  no_side_effect := by decide
  true_buffer := by decide
  left_le := by decide
  cursor := by decide
  int32_len := by decide
  init_long := by decide
  odd_blocks := by decide
  even_blocks := by decide
  tail_short := by decide

/-- For StepKeepsStatusInv, StepKeepsCursorInv and StepKeepsMemoryWf. -/
theorem test_witness_invariant_step :
    isNext (step oneByte) (fun t => t.phase == .m32Fin) = true ∧ oneByte.mem.wf = true := by decide

/-- For NoOverRead: the same buffer, with another byte after it. -/
theorem test_witness_no_over_read :
    CursorInv oneByte ∧
      ∀ a : Addr, oneByte.bufBase.toNat ≤ a.toNat → a.toNat < oneByte.bufBase.toNat + oneByte.bufLen.toNat →
        byteAnswer { oneByte with mem := bytesAt 0x10003 [7, 8], plat := oneByte.plat } a = byteAnswer oneByte a := by
  refine ⟨test_witness_cursor_inv, fun a h1 h2 => ?_⟩
  have h3 : oneByte.bufBase.toNat = 0x10003 := by decide
  have h4 : oneByte.bufLen.toNat = 1 := by decide
  have h5 : a = 0x10003 := BitVec.eq_of_toNat_eq (by simp; omega)
  subst h5
  decide

/-- For Mix32DeliversItsHash, Mix64aDeliversItsHash and ShortFh64DeliversItsHash: empty, shorter than a word, and longer than one. -/
theorem test_witness_hash :
    ∀ n ∈ [0, 3, 11, 32],
      let s := loaded (BitVec.ofNat 64 n) 0 (ramp n)
      (s.status.busy = false ∧ s.rst = false ∧ s.inbox = []) ∧ s.len.toNat = (ramp n).length ∧ (ramp n).length < 2 ^ 31 ∧
        (s.data.toNat + s.len.toNat ≤ 2 ^ 64 ∧ ∀ r ∈ s.sideEffectRanges, r.meets s.data.toNat s.len.toNat = false) ∧
        memRead s s.data (ramp n).length = .value (ramp n) ∧
        inTrueBuffer s.buffers s.data.toNat (ramp n).length = true := by decide

/-- For LongFh64DeliversItsHash. -/
theorem test_witness_long_hash :
    let s := loaded 33 0 (ramp 33)
    s.quiet ∧ s.len.toNat = (ramp 33).length ∧ 32 < (ramp 33).length ∧ s.keepsContract ∧ s.bufferAt s.data (ramp 33) := by
  exact ⟨⟨by decide, by decide, by decide⟩, by decide, by decide, ⟨by decide, by decide⟩, ⟨by decide, by decide⟩⟩

/-- `CALL MIX32` of the four bytes `"MapD"` with `SEED = 0`, at its first line (Program 1 of 95_test_vectors.md). -/
def mapDCall : Script := startScript (callLines .mix32 0x10003 4 0 0 1)

/-- The run goes on to a script and a state with the property. -/
def runsTo (o : Host.Outcome (Script × State) Fault Refusal) (p : Script → State → Bool) : Bool :=
  match o with
  | .next q => p q.1 q.2
  | .fault _ => false
  | .refused _ => false

/-- Program 1: `WAIT` polls while the command runs, and the call reads back `0x24a5af7b`. -/
theorem test_call_polls :
    runsTo (runTurns (List.replicate 6 .host) mapDCall (loaded 9 7 mapD))
        (fun q t => q.lines.length == 3 && scriptValue q 0 == some 1 && t.status.busy) = true ∧
      runsTo (runTurns (List.replicate 5 .host ++ List.replicate 3 (.world .engine) ++ List.replicate 3 .host) mapDCall
          (loaded 9 7 mapD))
        (fun q _ => q.lines == [] && !q.inError && scriptValue q 0 == some 2 && scriptValue q 1 == some 0x24a5af7b) =
          true := by decide

/-- For CallReadsTheHashBack. -/
theorem test_witness_call :
    let s := loaded 9 7 mapD
    s.status.busy = false ∧ s.rst = false ∧ { s with data := 0x10003, len := BitVec.ofNat 64 4 }.keepsContract ∧
      s.bufferAt 0x10003 mapD := by
  exact ⟨by decide, by decide, ⟨by decide, by decide⟩, ⟨by decide, by decide⟩⟩

/-- For ScriptLineByLine: a script at a line of each kind. -/
theorem test_witness_script_lines :
    (∀ l ∈ callLines .mix32 0x10003 4 0 0 1, (startScript [l]).lines = [l]) ∧
      callLines .mix32 0x10003 4 0 0 1 =
        [.wr .data 0x10003, .wr .len 4, .wr .seed 0, commandLine .mix32, .wait 0, .rd .result 1, .errorIf 0 2] ∧
      isNext (exec .mix32 (loaded 4 0 mapD)) (fun t => t.status.busy) = true ∧ (loaded 4 0 mapD).rst = false ∧
      scriptValue { startScript [.errorIf 0 2] with values := [(0, 4)] } 0 = some 4 := by decide

/-- For CallOfABadLengthIsInError: the shortest length that is rejected (R272), and each turn a host's or the engine's. -/
theorem test_witness_bad_call :
    let s := loaded 0 0 []
    s.status.busy = false ∧ s.rst = false ∧ 2 ^ 31 ≤ (0x80000000 : W64).toNat ∧
      (∀ x ∈ Turn.world .engine :: List.replicate 7 .host, x = .host ∨ x = .world .engine) ∧
      runsTo (runTurns (.world .engine :: List.replicate 7 .host)
          (startScript (callLines .mix64a 0x10003 0x80000000 0 0 1)) s)
        (fun q t => q.inError && statusWord t.status == 0x24) = true := by decide

/-- For ReadsAreLittleEndian. -/
theorem test_witness_little_endian : readWord (running .m32Body 4 0 mapD) 32 0x10003 4 = .value 0x4470614d ∧ 8 * 4 ≤ 32 := by
  decide

/-- For RotateMovesBits, FinalizeUnitLaws and RoundsByBytes: the ends of the ranges. -/
theorem test_witness_ranges :
    (rotr64 1 1).getLsbD 63 = true ∧ (rotr64 1 63).getLsbD 1 = true ∧ mxs32 0 1 = 0 ∧ mxs32 0 31 = 0 ∧ (1 : W64) ≠ 0 ∧
      State.reset.cfg.rotDir = .right ∧ (rotate State.reset.cfg 1 1).getLsbD 63 = true ∧
      (rotate { State.reset.cfg with rotDir := .left } 0x8000000000000000 63).getLsbD 62 = true ∧
      State.reset.cfg.encChoice = .specDefault ∧ State.reset.cfg.decChoice = .specDefault ∧
      byteOf (aesEnc 0 0) (3 + 4 * 3) = 0x63 ∧ byteOf (aesDec 0 0) (0 + 4 * 0) = 0x52 := by decide

/-- For SboxTablesAreTheAlgebra. -/
theorem test_witness_sbox : gmul 0x53 0xca = 1 ∧ sbox 0x53 = 0xed ∧ xtime 0x80 = 0x1b ∧ xtime 0x7f = 0xfe := by decide

/-- For RegisterAccessRules. -/
theorem test_witness_access :
    (facing (.read 0x38 8)).rst = false ∧ (0x38 : BitVec 8).toNat % 8 = 0 ∧ 0x38 ≤ (0x38 : BitVec 8).toNat ∧
      (facing (.write 0xF8 8 1)).inbox = [.write 0xF8 8 1] ∧ (0xF8 : BitVec 8).toNat % 8 = 0 ∧
      (facing (.read 0x30 4)).inbox = [.read 0x30 4] ∧ (facing (.write 0x09 8 1)).inbox = [.write 0x09 8 1] ∧
      (0x09 : BitVec 8).toNat % 8 ≠ 0 := by decide

/-- For RegistersReadBack and RegisterWrites: every register. -/
theorem test_witness_registers :
    (∀ o ∈ [0x00, 0x08, 0x10, 0x18, 0x20, 0x28, 0x30],
      (facing (.read o 8)).inbox = [.read o 8] ∧ (facing (.write o 8 0xE)).inbox = [.write o 8 0xE]) ∧
      (facing (.read 0x00 8)).rst = false ∧ (facing (.write 0x08 8 0xE)).rst = false := by decide

/-- For IrqRisesOnlyForItsCauses: each cause of a rising `irq` (R281), `DONE`, `ERR` and `IE`; `OVR` is none. -/
theorem test_witness_irq :
    let s := { running .m64Fin 0 0 [] with ie := true }
    let e := { facing (cmdWrite 0) with ie := true }
    let c := { facing (.write 0x10 8 1) with status := Status.completed false }
    let o := { s with phase := .m64Body, inbox := [cmdWrite 1] }
    s.irq = false ∧ isNext (step s) State.irq = true ∧ e.irq = false ∧ isNext (step e) State.irq = true ∧
      c.irq = false ∧ isNext (step c) State.irq = true ∧
      isNext (step o) (fun t => t.status.ovr && !t.irq) = true := by decide

/-- For IrqRisesOnlyForItsCauses: each way in which `irq` falls (R281), and a dropped word by which it does not. -/
theorem test_witness_irq_falls :
    let d := { facing (.write 0x08 8 2) with ie := true, status := Status.completed false }
    let e := { facing (.write 0x08 8 4) with ie := true, status := Status.failed .badLength false }
    (∀ s ∈ [d, e, { d with inbox := [.write 0x10 8 0] }, { d with inbox := [cmdWrite 9] }, { d with inbox := [.assertReset] }],
      s.irq = true ∧ isNext (step s) (fun t => !t.irq) = true) ∧
      isNext (step { d with inbox := [cmdWrite 0] }) State.irq = true ∧
      isNext (step { d with inbox := [.write 0x08 8 0xC] }) State.irq = true ∧ d.rst = false ∧ d.status.busy = false := by
  decide

/-- For OverrunDropsTheWord: `OVR` rising by a dropped write, and falling by a `STATUS` write (V-IS-16, V-IS-17). -/
theorem test_witness_overrun :
    let s := { running .m64Fin 0 0 [] with inbox := [cmdWrite 1, .write 0x08 8 8] }
    isNext (step s) (fun t => t.status.ovr && isNext (step t) (fun u => !u.status.ovr)) = true := by decide

/-- For ResetFromAnyState. -/
theorem test_witness_reset :
    (facing .assertReset).inbox = [.assertReset] ∧ { facing (.read 0x08 8) with rst := true }.rst = true ∧
      { facing .engine with rst := true }.inbox = [.engine] ∧
      { facing .releaseReset with rst := true }.inbox = [.releaseReset] := by decide

/-- For ConfigurationAndMemoryPersist: another agent changes a byte, and makes one unreadable. -/
theorem test_witness_memory_event :
    let s := { oneByte with inbox := [.poke 0x10003 8] }
    let u := { oneByte with inbox := [.unmap 0x10003] }
    s.mem.wf = true ∧ isNext (step s) (fun t => byteAnswer t 0x10003 != byteAnswer s 0x10003 && t.raced) = true ∧
      isNext (step u) (fun t => byteAnswer t 0x10003 != byteAnswer u 0x10003 && t.raced) = true := by decide

/-- For OutcomeIndependentOfHistory: two machines with different pasts and the same operands. -/
theorem test_witness_history :
    let s := loaded 4 1 mapD
    let p := { loaded 4 1 mapD with result := 5, h32 := 6, status := Status.failed .badLength true, ie := true }
    (s.status.busy = false ∧ s.rst = false ∧ s.inbox = []) ∧ (p.status.busy = false ∧ p.rst = false ∧ p.inbox = []) ∧
      s.data = p.data ∧ s.len = p.len ∧ s.seed = p.seed ∧ s.mem = p.mem ∧ s.cfg = p.cfg ∧ s.plat = p.plat ∧
      inTrueBuffer s.buffers s.data.toNat s.len.toNat = true ∧ inTrueBuffer p.buffers p.data.toNat p.len.toNat = true ∧
      isNext (exec .mix32 s) (fun t => isNext (Sys2Proof.core.run 3 t) fun u => u.status.done) = true ∧
      isNext (exec .mix32 p) (fun t => isNext (Sys2Proof.core.run 3 t) fun u => u.status.done) = true := by decide

/-- For EveryRunningCommandEnds. -/
theorem test_witness_command_ends :
    oneByte.status.busy = true ∧ oneByte.phase ≠ .idle ∧ oneByte.rst = false ∧ oneByte.inbox = [] ∧
      ∀ a : Addr, byteAnswer oneByte a ≠ .noAnswer := by
  refine ⟨by decide, by decide, by decide, by decide, fun a => ?_⟩
  unfold byteAnswer
  rw [if_neg (by simp [State.silentAt, oneByte, running, loaded, State.reset])]
  split <;> simp

/-- For EveryOtherStepGoesOn. -/
theorem test_witness_goes_on :
    (∀ (o : BitVec 8) (width : Nat) (rest : List Event), (facing (.poke 0 0)).inbox ≠ .read o width :: rest) ∧
      (∀ (o : BitVec 8) (width : Nat) (v : W64) (rest : List Event), (facing (.poke 0 0)).inbox ≠ .write o width v :: rest) ∧
      (facing (cmdWrite 3)).inbox = [cmdWrite 3] ∧ (facing (cmdWrite 3)).rst = false ∧ (facing (cmdWrite 3)).keepsContract := by
  refine ⟨fun o w r h => ?_, fun o w v r h => ?_, by decide, by decide, ⟨by decide, by decide⟩⟩
  · simp [facing] at h
  · simp [facing] at h

/-- The running command of four bytes has a race recorded after the event, or not. -/
def racesAfter (e : Event) (raced : Bool) : Bool :=
  isNext (step { running .m32Body 4 0 mapD with inbox := [e] }) (fun t => t.raced == raced)

/-- For ChangedBufferIsARace: a race at each end of the buffer by either event, none next to it. -/
theorem test_witness_race :
    racesAfter (.poke 0x10002 0xff) false = true ∧ racesAfter (.poke 0x10003 0xff) true = true ∧
      racesAfter (.poke 0x10006 0xff) true = true ∧ racesAfter (.poke 0x10007 0xff) false = true ∧
      racesAfter (.unmap 0x10002) false = true ∧ racesAfter (.unmap 0x10003) true = true ∧
      racesAfter (.unmap 0x10006) true = true ∧ racesAfter (.unmap 0x10007) false = true ∧
      (running .m32Body 4 0 mapD).mem.wf = true := by decide

/-- For ChangedBufferIsARace: commands that complete after a race. -/
theorem test_witness_raced_completion :
    ∀ ph ∈ [Phase.m32Fin, .m64Fin, .fhFin],
      let f := { running ph 0 0 [] with raced := true }
      f.status.busy = true ∧ f.rst = false ∧ f.raced = true ∧ f.phase = ph := by decide

/-- Eleven readable bytes of which the true buffer is the first ten. -/
def shortBuffer (len : W64) : State := { loaded len 0 (ramp 11) with buffers := [⟨0x10003, 10⟩] }

/-- For LengthBeyondTheBufferFreesTheResult: the true length and one byte more (R275), a buffer taken away under a command,
and a run to completion. -/
theorem test_witness_beyond_the_buffer :
    (∀ i ∈ [Instr.mix32, .mix64a, .fh64],
      isNext (exec i (shortBuffer 10)) (fun t => t.status.busy && !t.strayed) = true ∧
        isNext (exec i (shortBuffer 11)) (fun t => t.status.busy && t.strayed &&
          isNext (Sys2Proof.core.run 4 t) fun u => u.status.done) = true) ∧
      ((shortBuffer 11).status.busy = false ∧ (shortBuffer 11).rst = false ∧ (shortBuffer 11).inbox = []) ∧
      inTrueBuffer (shortBuffer 11).buffers (shortBuffer 11).data.toNat (shortBuffer 11).len.toNat = false ∧
      isNext (step { oneByte with inbox := [.declare []] }) (fun t => t.strayed) = true ∧
      ∀ ph ∈ [Phase.m32Fin, .m64Fin, .fhFin],
        let f := { running ph 0 0 [] with strayed := true }
        f.status.busy = true ∧ f.rst = false ∧ f.strayed = true ∧ f.phase = ph := by decide

/-- For OperandWritesDoNotDisturb: an operand register written while a command runs (R315). -/
theorem test_witness_operand_write : Register.data = .data ∧ (writeRegister oneByte .len 9).len = 9 := by decide

end Sys2Proof.Tests
end

/-!
# 00_scope.md and 44_finalize_unit.md: lanes, the rotate, and the functions of the finalize unit
-/

namespace Sys2Proof.Machine

/-! ### Lanes (00_scope.md R11) -/

@[simp] theorem hiLane_lanes (hi lo : W64) : hiLane (lanes hi lo) = hi := BitVec.extractLsb'_append_eq_left

@[simp] theorem loLane_lanes (hi lo : W64) : loLane (lanes hi lo) = lo := BitVec.extractLsb'_append_eq_right

theorem lanes_hiLane_loLane (u : V128) : lanes (hiLane u) (loLane u) = u :=
  BitVec.extractLsb'_append_extractLsb' (w := 64) (len := 64)

/-- Settles O39: each lane of a lane-wise result is read back from where it was put. -/
theorem lanesDoNotCarry : Obligations.LanesDoNotCarry := fun u _ =>
  ⟨hiLane_lanes _ _, loLane_lanes _ _, hiLane_lanes _ _, loLane_lanes _ _, lanes_hiLane_loLane u⟩

/-! ### The rotate (44_finalize_unit.md R244) -/

theorem rotate_right {c : Params} (h : c.rotDir = .right) (v : W64) (n : Nat) :
    rotate c v n = (v >>> n) ||| (v <<< (64 - n)) := by
  rw [rotate, h]
  rfl

theorem rotate_left {c : Params} (h : c.rotDir = .left) (v : W64) (n : Nat) :
    rotate c v n = (v <<< n) ||| (v >>> (64 - n)) := by
  rw [rotate, h]
  rfl

@[simp] theorem rotate_zero (c : Params) (n : Nat) : rotate c 0#64 n = 0#64 := by
  cases h : c.rotDir with
  | right => simp [rotate_right h]
  | left => simp [rotate_left h]

/-- Bit `i` of a rotate to the right comes from place `i + n`, which wraps at 64. -/
theorem getLsbD_rotr64 (v : W64) {n i : Nat} (h0 : 0 < n) (hn : n < 64) (hi : i < 64) :
    (rotr64 v n).getLsbD i = v.getLsbD ((i + n) % 64) := by
  rw [rotr64, BitVec.getLsbD_or, BitVec.getLsbD_ushiftRight, BitVec.getLsbD_shiftLeft]
  by_cases hwrap : i + n < 64
  · have hlow : i < 64 - n := by omega
    rw [Nat.mod_eq_of_lt hwrap, Nat.add_comm n i]
    simp [hlow]
  · have hhigh : ¬i < 64 - n := by omega
    have hplace : (i + n) % 64 = i - (64 - n) := by omega
    rw [hplace, BitVec.getLsbD_of_ge v (n + i) (by omega)]
    simp [hhigh, hi]

/-- A rotate to the left by `n` is one to the right by `64 - n`. -/
theorem rotl64_eq_rotr64 (v : W64) {n : Nat} (hn : n < 64) : rotl64 v n = rotr64 v (64 - n) := by
  rw [rotl64, rotr64, Nat.sub_sub_self (Nat.le_of_lt hn), BitVec.or_comm]

/-- Settles O37: by the two directions; the left one is the right one by the other count. -/
theorem rotateMovesBits : Obligations.RotateMovesBits := by
  intro c v n i h0 hn hi
  constructor
  · intro hdir
    rw [rotate_right hdir]
    exact getLsbD_rotr64 v h0 hn hi
  · intro hdir
    have hback : ((i + n) % 64 + (64 - n)) % 64 = i := by omega
    have hbit := getLsbD_rotr64 v (n := 64 - n) (i := (i + n) % 64) (by omega) (by omega) (by omega)
    rw [rotate_left hdir]
    rw [hback, ← rotl64_eq_rotr64 v hn] at hbit
    exact hbit

/-! ### The stages lose nothing (44_finalize_unit.md R255) -/

/-- A value exclusive-or itself shifted right determines the value: a difference would be its own shift. -/
theorem xorShiftRight_injective (w : Nat) {n : Nat} (hn : 0 < n) :
    Function.Injective fun v : BitVec w => v ^^^ (v >>> n) := by
  intro u v (h : u ^^^ (u >>> n) = v ^^^ (v >>> n))
  have hshift : u ^^^ v = (u ^^^ v) >>> n := by
    rw [BitVec.ushiftRight_xor_distrib, ← BitVec.xor_eq_zero_iff]
    calc u ^^^ v ^^^ ((u >>> n) ^^^ (v >>> n)) = (u ^^^ (u >>> n)) ^^^ (v ^^^ (v >>> n)) := by ac_rfl
      _ = 0#w := BitVec.xor_eq_zero_iff.2 h
  have hnat : (u ^^^ v).toNat = (u ^^^ v).toNat / 2 ^ n := by
    simpa [Nat.shiftRight_eq_div_pow] using congrArg BitVec.toNat hshift
  have hzero : (u ^^^ v).toNat = 0 := by
    by_contra hpos
    have := Nat.div_lt_self (Nat.pos_of_ne_zero hpos) (Nat.one_lt_two_pow (Nat.ne_of_gt hn))
    omega
  exact BitVec.xor_eq_zero_iff.1 (BitVec.eq_of_toNat_eq (by simpa using hzero))

/-- A factor with an inverse loses nothing. -/
theorem mul_injective_of_inverse {w : Nat} {m r : BitVec w} (h : m * r = 1#w) : Function.Injective fun v => v * m := by
  intro u v huv
  have hr : u * m * r = v * m * r := congrArg (· * r) huv
  simpa [BitVec.mul_assoc, h] using hr

theorem mul_m32_injective : Function.Injective fun h : W32 => h * m32 :=
  mul_injective_of_inverse (r := 0xd8198e9b) (by decide)

theorem mul_m64_injective : Function.Injective fun h : W64 => h * m64 :=
  mul_injective_of_inverse (r := 0x5f7a0ea7e59b19bd) (by decide)

theorem mxs32_injective {n : Nat} (hn : 0 < n) : Function.Injective fun h : W32 => mxs32 h n :=
  (xorShiftRight_injective 32 hn).comp mul_m32_injective

theorem shiftXor64_injective : Function.Injective shiftXor64 := xorShiftRight_injective 64 (by decide)

theorem fin32_injective : Function.Injective fin32 :=
  (mxs32_injective (n := 17) (by decide)).comp (mxs32_injective (n := 10) (by decide))

theorem fin64_injective : Function.Injective fin64 :=
  shiftXor64_injective.comp (mul_m64_injective.comp shiftXor64_injective)

theorem scr64_injective : Function.Injective scr64 :=
  mul_m64_injective.comp (shiftXor64_injective.comp mul_m64_injective)

/-! ### The multiply-xor-fold (44_finalize_unit.md R245) -/

/-- The full product loses nothing to the width. -/
theorem toNat_mulFull (v p : W64) : (mulFull v p).toNat = v.toNat * p.toNat := by
  have hlt : v.toNat * p.toNat < 2 ^ 64 * 2 ^ 64 := Nat.mul_lt_mul'' v.isLt p.isLt
  simp only [mulFull, BitVec.toNat_mul, BitVec.toNat_setWidth_of_le (show 64 ≤ 128 by decide)]
  exact Nat.mod_eq_of_lt (hlt.trans_eq (Nat.pow_add 2 64 64).symm)

theorem mulFull_comm (v p : W64) : mulFull v p = mulFull p v := BitVec.mul_comm _ _

theorem toNat_hiLane (u : V128) : (hiLane u).toNat = u.toNat / 2 ^ 64 := by
  have hlt : u.toNat / 2 ^ 64 < 2 ^ 64 := Nat.div_lt_of_lt_mul u.isLt
  rw [hiLane, BitVec.extractLsb'_toNat, Nat.shiftRight_eq_div_pow, Nat.mod_eq_of_lt hlt]

theorem toNat_loLane (u : V128) : (loLane u).toNat = u.toNat % 2 ^ 64 := by
  rw [loLane, BitVec.extractLsb'_toNat, Nat.shiftRight_zero]

theorem toNat_mux (v p : W64) :
    (mux v p).toNat = (v.toNat * p.toNat / 2 ^ 64) ^^^ (v.toNat * p.toNat % 2 ^ 64) := by
  rw [mux, BitVec.toNat_xor, toNat_hiLane, toNat_loLane, toNat_mulFull]

theorem mux_comm (v p : W64) : mux v p = mux p v := by
  rw [mux, mulFull_comm, mux]

@[simp] theorem mux_zero_left (p : W64) : mux 0#64 p = 0#64 := by
  apply BitVec.eq_of_toNat_eq
  rw [toNat_mux]
  simp

theorem mux_one_left (p : W64) : mux 1 p = p := by
  apply BitVec.eq_of_toNat_eq
  rw [toNat_mux, show (1 : W64).toNat = 1 from rfl, Nat.one_mul, Nat.div_eq_of_lt p.isLt, Nat.mod_eq_of_lt p.isLt,
    Nat.zero_xor]

/-- `(2^64 - 1) p = 2^64 (p - 1) + (2^64 - p)`: the two lanes are each other's complement. -/
theorem mux_allOnes_left {p : W64} (hp : p ≠ 0) : mux 0xffffffffffffffff p = 0xffffffffffffffff := by
  have hpos : 0 < p.toNat := Nat.pos_of_ne_zero fun h => hp (BitVec.eq_of_toNat_eq h)
  have hlt := p.isLt
  have hpred : (p - 1).toNat = p.toNat - 1 := by bv_omega
  have hhi : hiLane (mulFull 0xffffffffffffffff p) = p - 1 := by
    apply BitVec.eq_of_toNat_eq
    rw [toNat_hiLane, toNat_mulFull, hpred, show (0xffffffffffffffff : W64).toNat = 2 ^ 64 - 1 from rfl]
    omega
  have hlo : loLane (mulFull 0xffffffffffffffff p) = ~~~(p - 1) := by
    apply BitVec.eq_of_toNat_eq
    rw [toNat_loLane, toNat_mulFull, BitVec.toNat_not, hpred,
      show (0xffffffffffffffff : W64).toNat = 2 ^ 64 - 1 from rfl]
    omega
  rw [mux, hhi, hlo, ← BitVec.not_xor_right, BitVec.xor_self]
  rfl

/-! ### The FastHash64 functions (44_finalize_unit.md R246, R247) -/

@[simp] theorem mix_zero_left (c : Params) (p : W64) : mix c 0#64 p = 0#64 := by
  simp [mix]

theorem finFh_comm (c : Params) (a b : W64) : finFh c a b = finFh c b a := by
  rw [finFh, BitVec.add_comm a b, BitVec.xor_comm a b, finFh]

theorem finFh_zero (c : Params) : finFh c 0#64 0#64 = 0#64 := by
  simp [finFh]

/-- Settles O36: the functions are their definitions with the constants in place; the laws are those of the stages
above. -/
theorem finalizeUnitLaws : Obligations.FinalizeUnitLaws := by
  refine ⟨⟨fun _ _ => rfl, fun _ => rfl, fun _ => rfl, fun _ => rfl, toNat_mux, fun c => ?_⟩, ?_, ?_,
    finFh_comm, mux_one_left, mux_comm, fun _ => mux_allOnes_left⟩
  case refine_1 => exact ⟨rotate_right, rotate_left, fun _ _ => rfl, fun _ _ => rfl⟩
  case refine_2 =>
    have hmxs (n : Nat) : mxs32 0 n = 0 := by simp [mxs32]
    exact ⟨fun n _ _ => hmxs n, by decide, by decide, by decide, mux_zero_left,
      fun c => ⟨mix_zero_left c, finFh_zero c⟩⟩
  case refine_3 =>
    exact ⟨fun n hn _ => Finite.injective_iff_bijective.1 (mxs32_injective hn),
      Finite.injective_iff_bijective.1 fin32_injective, Finite.injective_iff_bijective.1 fin64_injective,
      Finite.injective_iff_bijective.1 scr64_injective⟩

end Sys2Proof.Machine

/-!
# 00_scope.md and 43_fasthash64_block.md: bytes of reads, of values, and of the two rounds
-/

namespace Sys2Proof.Machine

/-! ### Little-endian values (00_scope.md R10) -/

/-- The sum that R10 writes. -/
theorem leNat_eq_sum (bytes : List Byte) :
    leNat bytes = ∑ i ∈ Finset.range bytes.length, 2 ^ (8 * i) * (bytes.getD i 0).toNat := by
  induction bytes with
  | nil => rfl
  | cons v vs ih =>
    have hshift (i : Nat) : 2 ^ (8 * (i + 1)) * ((v :: vs).getD (i + 1) 0).toNat =
        256 * (2 ^ (8 * i) * (vs.getD i 0).toNat) := by
      rw [List.getD_cons_succ, Nat.mul_succ, Nat.pow_add]
      ring
    rw [leNat, ih, List.length_cons, Finset.sum_range_succ', Finset.mul_sum, Finset.sum_congr rfl fun i _ => hshift i]
    simp [Nat.add_comm]

/-- Byte `i` of a little-endian value. -/
theorem leNat_byte (bytes : List Byte) (i : Nat) : leNat bytes / 2 ^ (8 * i) % 2 ^ 8 = (bytes.getD i 0).toNat := by
  induction bytes generalizing i with
  | nil => simp [leNat]
  | cons v vs ih =>
    have hv : v.toNat < 256 := v.isLt
    cases i with
    | zero => simpa [leNat] using hv
    | succ i =>
      have htail : (v.toNat + 256 * leNat vs) / 256 = leNat vs := by omega
      rw [leNat, List.getD_cons_succ, ← ih i, Nat.mul_succ, Nat.add_comm (8 * i), Nat.pow_add,
        ← Nat.div_div_eq_div_mul, htail]

/-- A width that holds all the bytes loses none of them. -/
theorem toNat_leValue {w : Nat} {bytes : List Byte} (hw : 8 * bytes.length ≤ w) :
    (leValue w bytes).toNat = leNat bytes := by
  have hbytes : leNat bytes < 2 ^ (8 * bytes.length) := by
    rw [Nat.pow_mul]
    exact leNat_lt bytes
  rw [leValue, BitVec.toNat_ofNat]
  exact Nat.mod_eq_of_lt (hbytes.trans_le (Nat.pow_le_pow_right (by decide) hw))

/-- Each byte of a readable buffer is what its address answers (R81). -/
theorem byteAnswer_of_memRead {s : State} {a : Addr} {bytes : List Byte}
    (h : memRead s a bytes.length = .value bytes) {i : Nat} (hi : i < bytes.length) :
    byteAnswer s (a + BitVec.ofNat 64 i) = .value (bytes.getD i 0) := by
  have hone := memRead_part h i 1 hi
  rw [memRead_succ, Answer.andThen_eq_value] at hone
  obtain ⟨v, hv, hlist⟩ := hone
  rw [hv, List.getD_eq_getElem _ _ hi]
  rw [List.take_one_drop_eq_of_lt_length hi] at hlist
  simpa using hlist

/-- Settles O38: the bytes are those of the list that the read answered. -/
theorem readsAreLittleEndian : Obligations.ReadsAreLittleEndian := by
  intro s w n a v hw hread
  obtain ⟨bytes, hbytes, rfl⟩ := Answer.map_eq_value.1 hread
  obtain rfl := memRead_length hbytes
  exact ⟨fun i => bytes.getD i 0, fun i hi => byteAnswer_of_memRead hbytes hi,
    (toNat_leValue hw).trans (leNat_eq_sum bytes)⟩

/-! ### Bytes of a 128-bit value (00_scope.md R11, 43_fasthash64_block.md R212) -/

theorem byteOf_ofBytes (f : Nat → Byte) {i : Nat} (hi : i < 16) : byteOf (ofBytes f) i = f i := by
  apply BitVec.eq_of_toNat_eq
  have hlen : ((List.range 16).map f).length = 16 := by simp
  rw [byteOf, BitVec.extractLsb'_toNat, Nat.shiftRight_eq_div_pow, ofBytes, toNat_leValue (by omega), leNat_byte]
  simp [hi]

theorem byteOf_xor (u v : V128) (i : Nat) : byteOf (u ^^^ v) i = byteOf u i ^^^ byteOf v i :=
  BitVec.extractLsb'_xor

theorem byteOf_subBytes (v : V128) {i : Nat} (hi : i < 16) : byteOf (subBytes v) i = sbox (byteOf v i) :=
  byteOf_ofBytes _ hi

theorem byteOf_invSubBytes (v : V128) {i : Nat} (hi : i < 16) : byteOf (invSubBytes v) i = isbox (byteOf v i) :=
  byteOf_ofBytes _ hi

theorem byteOf_shiftRows (v : V128) {r c : Nat} (hr : r < 4) (hc : c < 4) :
    byteOf (shiftRows v) (r + 4 * c) = byteOf v (r + 4 * ((c + r) % 4)) := by
  have hrow : (r + 4 * c) % 4 = r := by omega
  have hcol : (r + 4 * c) / 4 = c := by omega
  rw [shiftRows, byteOf_ofBytes _ (by omega), shiftRowsSource, hrow, hcol]

theorem byteOf_invShiftRows (v : V128) {r c : Nat} (hr : r < 4) (hc : c < 4) :
    byteOf (invShiftRows v) (r + 4 * c) = byteOf v (r + 4 * ((c + 4 - r) % 4)) := by
  have hrow : (r + 4 * c) % 4 = r := by omega
  have hcol : (r + 4 * c) / 4 = c := by omega
  rw [invShiftRows, byteOf_ofBytes _ (by omega), invShiftRowsSource, hrow, hcol]

/-- Row `r` of the circulant matrix of R216, on column `c`. -/
theorem byteOf_mixWith (k0 k1 k2 k3 : Byte) (v : V128) {r c : Nat} (hr : r < 4) (hc : c < 4) :
    byteOf (mixWith k0 k1 k2 k3 v) (r + 4 * c) =
      gmul k0 (byteOf v (r + 4 * c)) ^^^ gmul k1 (byteOf v ((r + 1) % 4 + 4 * c)) ^^^
        gmul k2 (byteOf v ((r + 2) % 4 + 4 * c)) ^^^ gmul k3 (byteOf v ((r + 3) % 4 + 4 * c)) := by
  have hrow : (r + 4 * c) % 4 = r := by omega
  have hcol : (r + 4 * c) / 4 = c := by omega
  rw [mixWith, byteOf_ofBytes _ (by omega), hrow, hcol]
  simp only [Nat.add_comm (4 * c)]

/-- The entry 1 of a matrix leaves its byte alone (R216). -/
theorem gmul_one_left (v : Byte) : gmul 1 v = v := by
  revert v
  decide

/-- What `SubBytes` after `ShiftRows` puts in row `i`, column `j` (R215, R217). -/
def encCell (v : V128) (i j : Nat) : Byte := sbox (byteOf v (i + 4 * ((j + i) % 4)))

/-- What `InvSubBytes` after `InvShiftRows` puts in row `i`, column `j` (R215, R219). -/
def decCell (v : V128) (i j : Nat) : Byte := isbox (byteOf v (i + 4 * ((j + 4 - i) % 4)))

theorem byteOf_subBytes_shiftRows (v : V128) {i j : Nat} (hi : i < 4) (hj : j < 4) :
    byteOf (subBytes (shiftRows v)) (i + 4 * j) = encCell v i j := by
  rw [byteOf_subBytes _ (by omega), byteOf_shiftRows v hi hj, encCell]

theorem byteOf_invSubBytes_invShiftRows (v : V128) {i j : Nat} (hi : i < 4) (hj : j < 4) :
    byteOf (invSubBytes (invShiftRows v)) (i + 4 * j) = decCell v i j := by
  rw [byteOf_invSubBytes _ (by omega), byteOf_invShiftRows v hi hj, decCell]

/-- A byte of the encryption round, its column read from row `r` on. -/
theorem byteOf_aesEnc (v k : V128) {r c : Nat} (hr : r < 4) (hc : c < 4) :
    byteOf (aesEnc v k) (r + 4 * c) =
      gmul 2 (encCell v r c) ^^^ gmul 3 (encCell v ((r + 1) % 4) c) ^^^ encCell v ((r + 2) % 4) c ^^^
        encCell v ((r + 3) % 4) c ^^^ byteOf k (r + 4 * c) := by
  have hmod (n : Nat) : n % 4 < 4 := Nat.mod_lt n (by decide)
  rw [aesEnc, byteOf_xor, mixColumns, byteOf_mixWith _ _ _ _ _ hr hc, byteOf_subBytes_shiftRows v hr hc,
    byteOf_subBytes_shiftRows v (hmod _) hc, byteOf_subBytes_shiftRows v (hmod _) hc,
    byteOf_subBytes_shiftRows v (hmod _) hc, gmul_one_left, gmul_one_left]

/-- A byte of the decryption round, its column read from row `r` on. -/
theorem byteOf_aesDec (v k : V128) {r c : Nat} (hr : r < 4) (hc : c < 4) :
    byteOf (aesDec v k) (r + 4 * c) =
      gmul 14 (decCell v r c) ^^^ gmul 11 (decCell v ((r + 1) % 4) c) ^^^ gmul 13 (decCell v ((r + 2) % 4) c) ^^^
        gmul 9 (decCell v ((r + 3) % 4) c) ^^^ byteOf k (r + 4 * c) := by
  have hmod (n : Nat) : n % 4 < 4 := Nat.mod_lt n (by decide)
  rw [aesDec, byteOf_xor, invMixColumns, byteOf_mixWith _ _ _ _ _ hr hc, byteOf_invSubBytes_invShiftRows v hr hc,
    byteOf_invSubBytes_invShiftRows v (hmod _) hc, byteOf_invSubBytes_invShiftRows v (hmod _) hc,
    byteOf_invSubBytes_invShiftRows v (hmod _) hc]

/-- A sum of four read from its last term on. -/
theorem xor_turn (a b c d : Byte) : a ^^^ b ^^^ c ^^^ d = d ^^^ a ^^^ b ^^^ c := by ac_rfl

/-- A sum of four read from its third term on. -/
theorem xor_turn_twice (a b c d : Byte) : a ^^^ b ^^^ c ^^^ d = c ^^^ d ^^^ a ^^^ b := by ac_rfl

theorem enc_specDefault {c : Params} (h : c.encChoice = .specDefault) (v k : V128) : enc c v k = aesEnc v k := by
  rw [enc, h]

theorem dec_specDefault {c : Params} (h : c.decChoice = .specDefault) (v k : V128) : dec c v k = aesDec v k := by
  rw [dec, h]

/-- Settles O41: the rows of both matrices are one row turned, so each row of the statement is the byte's sum read
from another term on. -/
theorem roundsByBytes : Obligations.RoundsByBytes := by
  refine ⟨fun c v k => ⟨fun h => enc_specDefault h v k, fun h => dec_specDefault h v k⟩, fun v k r c hr hc => ⟨?_, ?_⟩⟩
  · rw [byteOf_aesEnc v k hr hc]
    obtain rfl | rfl | rfl | rfl : r = 0 ∨ r = 1 ∨ r = 2 ∨ r = 3 := by omega
    · rfl
    · exact congrArg (· ^^^ byteOf k (1 + 4 * c)) (xor_turn _ _ _ _)
    · exact congrArg (· ^^^ byteOf k (2 + 4 * c)) (xor_turn_twice _ _ _ _)
    · exact congrArg (· ^^^ byteOf k (3 + 4 * c)) (xor_turn _ _ _ _).symm
  · rw [byteOf_aesDec v k hr hc]
    obtain rfl | rfl | rfl | rfl : r = 0 ∨ r = 1 ∨ r = 2 ∨ r = 3 := by omega
    · rfl
    · exact congrArg (· ^^^ byteOf k (1 + 4 * c)) (xor_turn _ _ _ _)
    · exact congrArg (· ^^^ byteOf k (2 + 4 * c)) (xor_turn_twice _ _ _ _)
    · exact congrArg (· ^^^ byteOf k (3 + 4 * c)) (xor_turn _ _ _ _).symm

end Sys2Proof.Machine

/-!
# 00_scope.md: what a command starts from, and that its outcome forgets the past

The issue step of each command as one equation, the state it starts from, and the relation between two runs of one
command that the engine keeps.
-/

namespace Sys2Proof.Machine

/-! ### The issue step as one equation (30_encoding.md R112) -/

/-- The state in which the checks of the issue step are made (R112). -/
def clearedForIssue (s : State) : State := { s with status := statusCleared s.status }

/-- The command's length check fails (R272): only `MIX32` and `MIX64A` have one. -/
def rejectsLength : Instr → State → Bool
  | .mix32, s | .mix64a, s => s.lenTooLong
  | .fh64, _ | .fin32, _ | .fin64, _ | .finfh, _ => false

/-- A hash command at its acceptance, before its own init rule (R43, R44, R112). -/
def acceptedBuffer (s : State) : State :=
  { s with
    status := statusAccepted s.status, ptr := s.data, rem := s.len, raced := false, bufBase := s.data, bufLen := s.len
    strayed := !inTrueBuffer s.buffers s.data.toNat s.len.toNat }

/-- The state in which an accepted command begins: its init rule's (R141, R161, R181, R251). -/
def startState (i : Instr) (s : State) : State :=
  match i with
  | .mix32 => initMix32 (acceptedBuffer s)
  | .mix64a => initMix64a (acceptedBuffer s)
  | .fh64 => initFh64 (acceptedBuffer s)
  | .fin32 => { accept s with h32 := s.seed32, phase := .fuOnly32 }
  | .fin64 => { accept s with h64 := s.seed, phase := .fuOnly64 }
  | .finfh => { accept s with a := s.seed, b := s.len, phase := .fuOnlyFh }

/-- All the issue step of a command does at an idle engine when it is not refused: rejection or acceptance. -/
theorem exec_idle_eq_next {i : Instr} {s t : State} (hidle : s.status.busy = false) (h : exec i s = .next t) :
    t = if rejectsLength i s then raiseError .badLength (clearedForIssue s) else startState i (clearedForIssue s) := by
  have checkedLength (init : State → State)
      (h : (if (clearedForIssue s).lenTooLong then Host.Outcome.next (raiseError .badLength (clearedForIssue s))
        else acceptBuffer (clearedForIssue s) init) = .next t) :
      t = if s.lenTooLong then raiseError .badLength (clearedForIssue s)
        else init (acceptedBuffer (clearedForIssue s)) := by
    rw [show (clearedForIssue s).lenTooLong = s.lenTooLong from rfl] at h
    split at h
    · cases h
      simp [*]
    · simpa [*, acceptedBuffer] using (acceptBuffer_eq_next h).2
  cases i with
  | mix32 =>
    rw [show exec .mix32 s = execMix32 s from rfl, execMix32, issue_idle hidle] at h
    exact checkedLength _ h
  | mix64a =>
    rw [show exec .mix64a s = execMix64a s from rfl, execMix64a, issue_idle hidle] at h
    exact checkedLength _ h
  | fh64 =>
    rw [show exec .fh64 s = execFh64 s from rfl, execFh64, issue_idle hidle] at h
    exact (acceptBuffer_eq_next h).2
  | fin32 =>
    rw [show exec .fin32 s = execFin32 s from rfl, execFin32, issue_idle hidle] at h
    cases h
    rfl
  | fin64 =>
    rw [show exec .fin64 s = execFin64 s from rfl, execFin64, issue_idle hidle] at h
    cases h
    rfl
  | finfh =>
    rw [show exec .finfh s = execFinfh s from rfl, execFinfh, issue_idle hidle] at h
    cases h
    rfl

@[simp] theorem startState_raced (i : Instr) (s : State) : (startState i s).raced = false := by
  cases i <;> rfl

@[simp] theorem startState_strayed (i : Instr) (s : State) :
    (startState i s).strayed = (readsBuffer i && !inTrueBuffer s.buffers s.data.toNat s.len.toNat) := by
  cases i <;> rfl

@[simp] theorem startState_inbox (i : Instr) (s : State) : (startState i s).inbox = s.inbox := by
  cases i <;> rfl

/-- The issue step leaves the waiting events alone. -/
theorem exec_idle_inbox {i : Instr} {s t : State} (hidle : s.status.busy = false) (h : exec i s = .next t) :
    t.inbox = s.inbox := by
  rw [exec_idle_eq_next hidle h]
  split
  · rfl
  · rw [startState_inbox]
    rfl

/-! ### What a run of the engine leaves alone -/

/-- A field that no turn of the engine touches is not touched by a run of it. -/
theorem engineRun_field {β : Type} (f : State → β) (hturn : ∀ s, f (engineTurn s) = f s) (k : Nat) (s : State) :
    f (engineRun k s) = f s := by
  induction k generalizing s with
  | zero => rfl
  | succ k ih => rw [engineRun_succ, ih, hturn]

/-- The engine itself breaks no contract on the bytes (R93, R275). -/
@[simp] theorem engineRun_resultOpen (k : Nat) (s : State) : (engineRun k s).resultOpen = s.resultOpen :=
  engineRun_field State.resultOpen
    (fun s => engineTurn_field State.resultOpen s rfl (fun _ _ _ => by simp [State.resultOpen])
      (fun _ _ _ _ _ _ _ _ _ _ _ => rfl)) k s

/-! ### Reads of two machines with the same memory -/

theorem byteAnswer_congr {s s' : State} (hmem : s.mem = s'.mem) (hplat : s.plat = s'.plat) (a : Addr) :
    byteAnswer s a = byteAnswer s' a := by
  simp [byteAnswer, State.silentAt, hmem, hplat]

theorem readWord_congr {s s' : State} (hmem : s.mem = s'.mem) (hplat : s.plat = s'.plat) (w : Nat) (a : Addr)
    (n : Nat) : readWord s w a n = readWord s' w a n := by
  rw [readWord, readWord, memRead_congr fun i _ => byteAnswer_congr hmem hplat (a + BitVec.ofNat 64 i)]

theorem m32Folds_congr {s s' : State} (hmem : s.mem = s'.mem) (hplat : s.plat = s'.plat) (hptr : s.ptr = s'.ptr)
    (j : Nat) (h : W32) : m32Folds s j h = m32Folds s' j h := by
  induction j generalizing h with
  | zero => rfl
  | succ j ih => simp only [m32Folds, hptr, readWord_congr hmem hplat, ih]

theorem m64Folds_congr {s s' : State} (hmem : s.mem = s'.mem) (hplat : s.plat = s'.plat) (hptr : s.ptr = s'.ptr)
    (j : Nat) (h : W64) : m64Folds s j h = m64Folds s' j h := by
  induction j generalizing h with
  | zero => rfl
  | succ j ih => simp only [m64Folds, hptr, readWord_congr hmem hplat, ih]

theorem brackets_congr {s s' : State} (hmem : s.mem = s'.mem) (hplat : s.plat = s'.plat) (hcfg : s.cfg = s'.cfg)
    (ha : s.a = s'.a) (hb : s.b = s'.b) (hptr : s.ptr = s'.ptr) (r : Nat) : brackets s r = brackets s' r := by
  have hif (fires : Bool) (p : W64) (n : Nat) (acc : W64) (q : Addr) :
      bracketIf fires s p n acc q = bracketIf fires s' p n acc q := by
    simp only [bracketIf, bracket, readWord_congr hmem hplat]
  simp only [brackets, hif, hcfg, ha, hb, hptr]

/-! ### Two runs of one command -/

/-- Two machines that a host cannot tell apart by the flags of R33 but `OVR`, and that read the same memory under the
same configuration. `RESULT` need agree only when it is the value of a completed command (R57, R275). -/
structure SameOutcome (s s' : State) : Prop where
  rst : s.rst = s'.rst
  mem : s.mem = s'.mem
  cfg : s.cfg = s'.cfg
  plat : s.plat = s'.plat
  busy : s.status.busy = s'.status.busy
  done : s.status.done = s'.status.done
  err : s.status.err = s'.status.err
  ecode : s.status.ecode = s'.status.ecode
  result : s.status.done = true → s.resultOpen = false → s'.resultOpen = false → s.result = s'.result

/-- The internal registers agree that a rule of the phase, or of a later one, reads before it writes them (R50). -/
def SameLive : Phase → State → State → Prop
  | .idle, _, _ => True
  | .m32Body, s, s' => s.ptr = s'.ptr ∧ s.rem = s'.rem ∧ s.h32 = s'.h32
  | .m64Body, s, s' => s.ptr = s'.ptr ∧ s.rem = s'.rem ∧ s.h64 = s'.h64
  | .m32Fin, s, s' | .fuOnly32, s, s' => s.h32 = s'.h32
  | .m64Fin, s, s' | .fuOnly64, s, s' => s.h64 = s'.h64
  | .fhInit, s, s' | .fhTail, s, s' => s.ptr = s'.ptr ∧ s.rem = s'.rem ∧ s.a = s'.a ∧ s.b = s'.b
  | .fhOdd, s, s' => s.ptr = s'.ptr ∧ s.rem = s'.rem ∧ s.nblk = s'.nblk ∧ s.x = s'.x ∧ s.y = s'.y
  | .fhBlk, s, s' =>
    s.ptr = s'.ptr ∧ s.rem = s'.rem ∧ s.nblk = s'.nblk ∧ s.x = s'.x ∧ s.y = s'.y ∧ s.salt = s'.salt
  | .fhFin, s, s' | .fuOnlyFh, s, s' => s.a = s'.a ∧ s.b = s'.b

/-- Two machines at the same point of the same command, whatever came before it. -/
structure Alike (s s' : State) : Prop where
  outcome : SameOutcome s s'
  phase : s.phase = s'.phase
  live : SameLive s.phase s s'

/-- The internal registers have no part in the outcome. -/
theorem SameOutcome.internals {s s' : State} (h : SameOutcome s s')
    {ph : Phase} {p r n : W64} {g : W32} {k a b : W64} {x y z : V128}
    {ph' : Phase} {p' r' n' : W64} {g' : W32} {k' a' b' : W64} {x' y' z' : V128} :
    SameOutcome
      { s with
        phase := ph, ptr := p, rem := r, nblk := n, h32 := g, h64 := k, a := a, b := b, x := x, y := y, salt := z }
      { s' with
        phase := ph', ptr := p', rem := r', nblk := n', h32 := g', h64 := k', a := a', b := b', x := x', y := y'
        salt := z' } :=
  ⟨h.rst, h.mem, h.cfg, h.plat, h.busy, h.done, h.err, h.ecode, h.result⟩

theorem SameOutcome.raiseBusError {s s' : State} (h : SameOutcome s s') :
    Alike (raiseBusError s) (raiseBusError s') where
  outcome := ⟨h.rst, h.mem, h.cfg, h.plat, rfl, h.done, rfl, rfl, h.result⟩
  phase := rfl
  live := trivial

/-- The value delivered is `RESULT` where the contract on the bytes is kept. -/
theorem deliver_result {s : State} (v : W64) (h : (deliver v s).resultOpen = false) : (deliver v s).result = v := by
  have hopen : s.resultOpen = false := by simpa [State.resultOpen] using h
  rw [deliver_eq_complete hopen, complete_result]

theorem SameOutcome.deliver {s s' : State} (h : SameOutcome s s') {v v' : W64} (hv : v = v') :
    Alike (deliver v s) (deliver v' s') where
  outcome := by
    refine ⟨?_, ?_, ?_, ?_, ?_, ?_, ?_, ?_, fun _ ho ho' => ?_⟩
    case refine_9 => rw [deliver_result v ho, deliver_result v' ho', hv]
    all_goals simp [h.rst, h.mem, h.cfg, h.plat, h.err, h.ecode]
  phase := by simp
  live := by
    rw [deliver_phase]
    trivial

/-- A step that depends on a read, on two machines that get the same answer. -/
theorem Alike.onAnswer {α : Type} {s s' : State} (h : Alike s s') {r r' : Answer α} (hr : r = r') {k k' : α → State}
    (hk : ∀ v, Alike (k v) (k' v)) : Alike (onAnswer s r k) (onAnswer s' r' k') := by
  subst hr
  cases r with
  | value v => exact hk v
  | busError => exact h.outcome.raiseBusError
  | noAnswer => exact h

/-! ### Each phase keeps two machines alike -/

theorem m32Body_alike {s s' : State} (h : Alike s s') (hph : s.phase = .m32Body) : Alike (m32Body s) (m32Body s') := by
  obtain ⟨hptr, hrem, hh⟩ : SameLive .m32Body s s' := hph ▸ h.live
  have hmem := h.outcome.mem
  have hplat := h.outcome.plat
  unfold m32Body
  rw [← hrem]
  split
  · refine h.onAnswer (by rw [hptr, readWord_congr hmem hplat]) fun k => ⟨h.outcome.internals, h.phase, ?_⟩
    change SameLive s.phase _ _
    rw [hph]
    exact ⟨by rw [hptr], by rw [hrem], by rw [hh]⟩
  · refine h.onAnswer (by rw [hrem, hh, m32Folds_congr hmem hplat hptr]) fun k => ⟨h.outcome.internals, rfl, ?_⟩
    exact congrArg (fun r => if r = 0 then k else mxs32 k 16) hrem

theorem m64Body_alike {s s' : State} (h : Alike s s') (hph : s.phase = .m64Body) : Alike (m64Body s) (m64Body s') := by
  obtain ⟨hptr, hrem, hh⟩ : SameLive .m64Body s s' := hph ▸ h.live
  have hmem := h.outcome.mem
  have hplat := h.outcome.plat
  unfold m64Body
  rw [← hrem]
  split
  · refine h.onAnswer (by rw [hptr, readWord_congr hmem hplat]) fun k => ⟨h.outcome.internals, h.phase, ?_⟩
    change SameLive s.phase _ _
    rw [hph]
    exact ⟨by rw [hptr], by rw [hrem], by rw [hh]⟩
  · refine h.onAnswer (by rw [hrem, hh, m64Folds_congr hmem hplat hptr]) fun k => ⟨h.outcome.internals, rfl, ?_⟩
    exact congrArg (fun r => if r = 0 then k else k * m64) hrem

theorem fhInitStep_alike {s s' : State} (h : Alike s s') (hph : s.phase = .fhInit) :
    Alike (fhInitStep s) (fhInitStep s') := by
  obtain ⟨hptr, hrem, ha, hb⟩ : SameLive .fhInit s s' := hph ▸ h.live
  have hinit : fhInit s.cfg s.a s.b = fhInit s'.cfg s'.a s'.b := by rw [h.outcome.cfg, ha, hb]
  exact ⟨h.outcome.internals, rfl, hptr, congrArg (· &&& 15) hrem, congrArg (fun r : W64 => r >>> (4 : Nat)) hrem,
    congrArg Prod.fst hinit, congrArg Prod.snd hinit⟩

theorem fhOddStep_alike {s s' : State} (h : Alike s s') (hph : s.phase = .fhOdd) :
    Alike (fhOddStep s) (fhOddStep s') := by
  obtain ⟨hptr, hrem, hnblk, hx, hy⟩ : SameLive .fhOdd s s' := hph ▸ h.live
  unfold fhOddStep
  rw [← hnblk]
  split
  · refine h.onAnswer (by rw [hptr, readWord_congr h.outcome.mem h.outcome.plat])
      fun v => ⟨h.outcome.internals, rfl, ?_⟩
    have hodd : fhOdd s.cfg s.x s.y v = fhOdd s'.cfg s'.x s'.y v := by rw [h.outcome.cfg, hx, hy]
    exact ⟨congrArg (· + 16) hptr, hrem, rfl, congrArg Prod.fst hodd, congrArg Prod.snd hodd,
      congrArg Prod.snd hodd⟩
  · exact ⟨h.outcome.internals, rfl, hptr, hrem, rfl, hx, hy, hy⟩

theorem fhBlkStep_alike {s s' : State} (h : Alike s s') (hph : s.phase = .fhBlk) :
    Alike (fhBlkStep s) (fhBlkStep s') := by
  obtain ⟨hptr, hrem, hnblk, hx, hy, hsalt⟩ : SameLive .fhBlk s s' := hph ▸ h.live
  have hread := readWord_congr h.outcome.mem h.outcome.plat
  unfold fhBlkStep
  rw [← hnblk]
  split
  · refine h.onAnswer (by simp only [hread, hptr, h.outcome.cfg, hx, hy, hsalt])
      fun q => ⟨h.outcome.internals, h.phase, ?_⟩
    change SameLive s.phase _ _
    rw [hph]
    exact ⟨by rw [hptr], hrem, by rw [hnblk], rfl, rfl, rfl⟩
  · split
    · refine h.onAnswer (by simp only [hread, hptr, h.outcome.cfg, hx, hy])
        fun q => ⟨h.outcome.internals, h.phase, ?_⟩
      change SameLive s.phase _ _
      rw [hph]
      exact ⟨by rw [hptr], hrem, by rw [hnblk], rfl, rfl, hsalt⟩
    · have hcomb : fhComb s.cfg s.x s.y = fhComb s'.cfg s'.x s'.y := by rw [h.outcome.cfg, hx, hy]
      exact ⟨h.outcome.internals, rfl, hptr, hrem, congrArg Prod.fst hcomb, congrArg Prod.snd hcomb⟩

theorem fhTailStep_alike {s s' : State} (h : Alike s s') (hph : s.phase = .fhTail) :
    Alike (fhTailStep s) (fhTailStep s') := by
  obtain ⟨hptr, hrem, ha, hb⟩ : SameLive .fhTail s s' := hph ▸ h.live
  exact h.onAnswer (by rw [hrem, brackets_congr h.outcome.mem h.outcome.plat h.outcome.cfg ha hb hptr])
    fun q => ⟨h.outcome.internals, rfl, rfl, rfl⟩

/-- By phase: six have their own lemma, the others end the command and deliver the same value. -/
theorem phaseStep_alike {s s' : State} (h : Alike s s') : Alike (phaseStep s) (phaseStep s') := by
  unfold phaseStep
  rw [← h.phase]
  have hlive := h.live
  cases hph : s.phase with
  | idle => exact h
  | m32Body => exact m32Body_alike h hph
  | m64Body => exact m64Body_alike h hph
  | fhInit => exact fhInitStep_alike h hph
  | fhOdd => exact fhOddStep_alike h hph
  | fhBlk => exact fhBlkStep_alike h hph
  | fhTail => exact fhTailStep_alike h hph
  | m32Fin =>
    rw [hph] at hlive
    exact h.outcome.internals.deliver (congrArg (fun g => (fin32 g).setWidth 64) hlive)
  | m64Fin =>
    rw [hph] at hlive
    exact h.outcome.internals.deliver (congrArg fin64 hlive)
  | fuOnly32 =>
    rw [hph] at hlive
    exact h.outcome.deliver (congrArg (fun g => (fin32 g).setWidth 64) hlive)
  | fuOnly64 =>
    rw [hph] at hlive
    exact h.outcome.deliver (congrArg fin64 hlive)
  | fhFin =>
    rw [hph] at hlive
    exact h.outcome.deliver (by rw [h.outcome.cfg, hlive.1, hlive.2])
  | fuOnlyFh =>
    rw [hph] at hlive
    exact h.outcome.deliver (by rw [h.outcome.cfg, hlive.1, hlive.2])

theorem engineTurn_alike {s s' : State} (h : Alike s s') : Alike (engineTurn s) (engineTurn s') := by
  unfold engineTurn
  rw [← h.outcome.busy, ← h.outcome.rst]
  split
  · exact phaseStep_alike h
  · exact h

theorem engineRun_alike {s s' : State} (h : Alike s s') (k : Nat) : Alike (engineRun k s) (engineRun k s') := by
  induction k generalizing s s' with
  | zero => exact h
  | succ k ih => exact ih (engineTurn_alike h)

/-! ### From two issues on (R3, R50, R51) -/

/-- The two machines agree on all that R3 lets a command depend on. -/
structure SameOperands (s s' : State) : Prop where
  data : s.data = s'.data
  len : s.len = s'.len
  seed : s.seed = s'.seed
  mem : s.mem = s'.mem
  cfg : s.cfg = s'.cfg
  plat : s.plat = s'.plat

/-- An accepted command starts alike on machines with the same operands. -/
theorem startState_alike (i : Instr) {s s' : State} (h : SameOperands s s') (hrst : s.rst = s'.rst) :
    Alike (startState i (clearedForIssue s)) (startState i (clearedForIssue s')) := by
  have hseed32 : s.seed32 = s'.seed32 := by rw [State.seed32, h.seed, State.seed32]
  have hlen32 : s.len32 = s'.len32 := by rw [State.len32, h.len, State.len32]
  have houtcome : SameOutcome (acceptedBuffer (clearedForIssue s)) (acceptedBuffer (clearedForIssue s')) :=
    ⟨hrst, h.mem, h.cfg, h.plat, rfl, rfl, rfl, rfl, nofun⟩
  have houtcome' : SameOutcome (accept (clearedForIssue s)) (accept (clearedForIssue s')) :=
    ⟨hrst, h.mem, h.cfg, h.plat, rfl, rfl, rfl, rfl, nofun⟩
  cases i with
  | mix32 =>
    exact ⟨houtcome.internals, rfl, h.data, h.len, congrArg₂ (fun g n => g ^^^ (n * m32)) hseed32 hlen32⟩
  | mix64a =>
    exact ⟨houtcome.internals, rfl, h.data, h.len,
      congrArg₂ (fun (g : W64) (n : W32) => g ^^^ (n.setWidth 64 * m64)) h.seed hlen32⟩
  | fh64 =>
    refine ⟨houtcome.internals,
      congrArg (fun n : W64 => if decide (32 < n.toNat) then Phase.fhInit else .fhTail) h.len, ?_⟩
    change SameLive (if s.takesBlockPath then .fhInit else .fhTail) _ _
    split
    · exact ⟨h.data, h.len, h.seed, h.len⟩
    · exact ⟨h.data, h.len, h.seed, h.len⟩
  | fin32 => exact ⟨houtcome'.internals, rfl, hseed32⟩
  | fin64 => exact ⟨houtcome'.internals, rfl, h.seed⟩
  | finfh => exact ⟨houtcome'.internals, rfl, h.seed, h.len⟩

theorem rejectsLength_congr (i : Instr) {s s' : State} (h : s.len = s'.len) :
    rejectsLength i s = rejectsLength i s' := by
  cases i <;> simp only [rejectsLength, State.lenTooLong, h]

/-- A command leaves its issue alike on machines with the same operands. -/
theorem exec_alike {i : Instr} {s s' t t' : State} (hq : s.quiet) (hq' : s'.quiet) (h : SameOperands s s')
    (ht : exec i s = .next t) (ht' : exec i s' = .next t') : Alike t t' := by
  obtain ⟨hidle, hrst, -⟩ := hq
  obtain ⟨hidle', hrst', -⟩ := hq'
  rw [exec_idle_eq_next hidle ht, exec_idle_eq_next hidle' ht', ← rejectsLength_congr i h.len]
  split
  · exact ⟨⟨hrst.trans hrst'.symm, h.mem, h.cfg, h.plat, rfl, rfl, rfl, rfl, nofun⟩, rfl, trivial⟩
  · exact startState_alike i h (hrst.trans hrst'.symm)

/-- A command that completes after its issue, and reads a true buffer if any, keeps the contract on the bytes (R275). -/
theorem exec_run_resultOpen {i : Instr} {s t : State} (hidle : s.status.busy = false) (ht : exec i s = .next t)
    (hbuf : readsBuffer i = true → inTrueBuffer s.buffers s.data.toNat s.len.toNat = true) {k : Nat}
    (hdone : (engineRun k t).status.done = true) : (engineRun k t).resultOpen = false := by
  have hstart := exec_idle_eq_next hidle ht
  split at hstart
  · rw [hstart, engineRun_of_idle rfl] at hdone
    cases hdone
  · rw [engineRun_resultOpen, resultOpen_eq_false, hstart, startState_raced, startState_strayed]
    cases hreads : readsBuffer i with
    | false => exact ⟨rfl, rfl⟩
    | true => exact ⟨rfl, congrArg not (hbuf hreads)⟩

/-- Settles O54: the issue leaves the two machines alike, every turn of the engine keeps them so, and machines that are
alike agree on the flags and on the result of a completed command. -/
theorem outcomeIndependentOfHistory : Obligations.OutcomeIndependentOfHistory := by
  intro i s s' t t' hq hq' hdata hlen hseed hmem hcfg hplat ht ht' k u u' hu hu'
  have ⟨hidle, _, hinbox⟩ := hq
  have ⟨hidle', _, hinbox'⟩ := hq'
  rw [run_of_empty ((exec_idle_inbox hidle ht).trans hinbox)] at hu
  rw [run_of_empty ((exec_idle_inbox hidle' ht').trans hinbox')] at hu'
  cases hu
  cases hu'
  have h := (engineRun_alike (exec_alike hq hq' ⟨hdata, hlen, hseed, hmem, hcfg, hplat⟩ ht ht') k).outcome
  refine ⟨h.busy, h.done, h.err, h.ecode, fun hdone hbuf => h.result hdone ?_ ?_⟩
  · exact exec_run_resultOpen hidle ht (fun hreads => (hbuf hreads).1) hdone
  · exact exec_run_resultOpen hidle' ht' (fun hreads => (hbuf hreads).2) (h.done ▸ hdone)

end Sys2Proof.Machine

/-!
# 10_state.md: the registers, and what each kind of step may change

What a host access, an issue, a turn of the engine and a step can do, each said once, and the statements about single
registers, the configuration and the interrupt output that rest on it.
-/

namespace Sys2Proof.Machine

/-! ### Host accesses (10_state.md R31, R39) -/

theorem guardAccess_of_defined {s : State} (hr : s.rst = false) {o : BitVec 8} (ho : o.toNat % 8 = 0) (run : Outcome) :
    guardAccess s o 8 run = run := by
  simp [guardAccess, hr, (accessDefined_iff o 8).2 ⟨rfl, ho⟩]

theorem guardAccess_of_undefined {s : State} (hr : s.rst = false) {o : BitVec 8} {width : Nat}
    (h : width ≠ 8 ∨ o.toNat % 8 ≠ 0) (run : Outcome) : guardAccess s o width run = .refused .accessShape := by
  have hundefined : ¬accessDefined o width = true := by
    rw [accessDefined_iff]
    omega
  simp [guardAccess, hr, hundefined]

/-- Each register but `reserved` has one offset (R31). -/
theorem eq_offsetOf_of_registerAt {o : BitVec 8} {r : Register} (h : registerAt o = r) (hr : r ≠ .reserved) :
    o = offsetOf r := by
  subst h
  revert hr
  unfold registerAt
  repeat' split
  all_goals simp [offsetOf, *]

/-- The offsets from `0x38` on are reserved (R39). -/
theorem registerAt_reserved {o : BitVec 8} (h : 0x38 ≤ o.toNat) : registerAt o = .reserved := by
  cases hr : registerAt o with
  | reserved => rfl
  | cmd | status | ctrl | data | len | seed | result =>
    rw [eq_offsetOf_of_registerAt hr (by decide)] at h
    exact absurd h (by decide)

theorem registerAt_offsetOf (r : Register) : registerAt (offsetOf r) = r := by
  cases r <;> rfl

theorem offsetOf_aligned (r : Register) : (offsetOf r).toNat % 8 = 0 := by
  cases r <;> rfl

/-- A host read of the right shape, as a step. -/
theorem step_hostRead {s : State} {o : BitVec 8} {rest : List Event} (hr : s.rst = false) (ho : o.toNat % 8 = 0)
    (h : s.inbox = .read o 8 :: rest) :
    step s = .next { s with inbox := rest, rdata := readRegister s (registerAt o) } := by
  rw [step_of_event h]
  refine (guardAccess_of_defined (s := { s with inbox := rest }) hr ho _).trans ?_
  unfold hostRead
  cases registerAt o <;> rfl

/-- A host write of the right shape, as a step. -/
theorem step_hostWrite {s : State} {o : BitVec 8} {v : W64} {rest : List Event} (hr : s.rst = false)
    (ho : o.toNat % 8 = 0) (h : s.inbox = .write o 8 v :: rest) : step s = hostWrite { s with inbox := rest } o v := by
  rw [step_of_event h]
  exact guardAccess_of_defined (s := { s with inbox := rest }) hr ho _

theorem step_readRegister {s : State} {rest : List Event} (hr : s.rst = false) (r : Register)
    (h : s.inbox = .read (offsetOf r) 8 :: rest) :
    step s = .next { s with inbox := rest, rdata := readRegister s r } := by
  rw [step_hostRead hr (offsetOf_aligned r) h, registerAt_offsetOf]

theorem step_writeRegister {s : State} {v : W64} {rest : List Event} (hr : s.rst = false) {r : Register} (hc : r ≠ .cmd)
    (h : s.inbox = .write (offsetOf r) 8 v :: rest) :
    step s = .next (writeRegister { s with inbox := rest } r v) := by
  rw [step_hostWrite hr (offsetOf_aligned r) h, hostWrite, registerAt_offsetOf, if_neg hc]

/-- Settles O42: an access of the right shape is its register's, and from `0x38` on that is the reserved one. -/
theorem registerAccessRules : Obligations.RegisterAccessRules := by
  intro s o width v rest hr
  refine ⟨?_, ?_, ?_⟩
  · rintro h rfl ho
    exact ⟨_, step_hostRead hr ho h, fun hres => by rw [registerAt_reserved hres]; rfl⟩
  · rintro h rfl ho hres
    rw [step_hostWrite hr ho h, hostWrite, registerAt_reserved hres]
    rfl
  · intro h hbad
    have hrefused := guardAccess_of_undefined (s := { s with inbox := rest }) hr hbad
    rcases h with h | h
    · exact (step_of_event h).trans (hrefused _)
    · exact (step_of_event h).trans (hrefused _)

/-! ### The words a host reads (10_state.md R33, R34) -/

theorem getLsbD_statusWord_busy (st : Status) : (statusWord st).getLsbD 0 = st.busy := by
  simp only [statusWord, BitVec.getLsbD_append]
  simp

theorem getLsbD_statusWord_done (st : Status) : (statusWord st).getLsbD 1 = st.done := by
  simp only [statusWord, BitVec.getLsbD_append]
  simp

theorem getLsbD_statusWord_err (st : Status) : (statusWord st).getLsbD 2 = st.err := by
  simp only [statusWord, BitVec.getLsbD_append]
  simp

theorem getLsbD_statusWord_ovr (st : Status) : (statusWord st).getLsbD 3 = st.ovr := by
  simp only [statusWord, BitVec.getLsbD_append]
  simp

/-- `STATUS[7:4]` is `ECODE` (R270). -/
theorem extract_statusWord_ecode (st : Status) : (statusWord st).extractLsb' 4 4 = ecodeBits st.ecode := by
  ext i hi
  have hbit : 4 + i - 1 - 1 - 1 - 1 = i := by omega
  simp only [statusWord, BitVec.getElem_extractLsb', BitVec.getLsbD_append, hbit]
  grind

theorem extract_statusWord_high (st : Status) : (statusWord st).extractLsb' 8 56 = 0 := by
  ext i hi
  simp only [statusWord, BitVec.getElem_extractLsb', BitVec.getLsbD_append]
  grind

theorem ctrlWord_eq (ie : Bool) : ctrlWord ie = if ie then 1 else 0 := by
  cases ie <;> decide

/-- Settles O43: a read returns the register's word, and the words of `STATUS` and `CTRL` have the bits of R33, R34. -/
theorem registersReadBack : Obligations.RegistersReadBack := by
  intro s rest hr
  refine ⟨step_readRegister hr .cmd, fun h => ?_, fun h => ?_, step_readRegister hr .data,
    step_readRegister hr .len, step_readRegister hr .seed, step_readRegister hr .result⟩
  · refine ⟨statusWord s.status, step_readRegister hr .status h, getLsbD_statusWord_busy _, getLsbD_statusWord_done _,
      getLsbD_statusWord_err _, getLsbD_statusWord_ovr _, extract_statusWord_high _, ?_⟩
    rw [extract_statusWord_ecode]
    cases s.status.ecode <;> rfl
  · rw [← ctrlWord_eq]
    exact step_readRegister hr .ctrl h

/-! ### Register writes (10_state.md R33 to R38) -/

/-- Write-one-to-clear, bit by bit (R33). -/
theorem statusAfterWrite_eq (w : W64) (st : Status) :
    statusAfterWrite w st =
      { busy := st.busy
        done := if w.getLsbD 1 then false else st.done
        err := if w.getLsbD 2 then false else st.err
        ovr := if w.getLsbD 3 then false else st.ovr
        ecode := if w.getLsbD 2 then .none else st.ecode } := by
  have clear (f b : Bool) : (f && !b) = if b then false else f := by cases b <;> simp
  simp only [statusAfterWrite, clear]

/-- Settles O44: each write is `writeRegister` at its register; no branch of it looks at `BUSY`. -/
theorem registerWrites : Obligations.RegisterWrites := by
  intro s v rest hr
  refine ⟨fun h => ?_, step_writeRegister hr (r := .ctrl) nofun, step_writeRegister hr (r := .data) nofun,
    step_writeRegister hr (r := .len) nofun, step_writeRegister hr (r := .seed) nofun,
    step_writeRegister hr (r := .result) nofun⟩
  rw [← statusAfterWrite_eq]
  exact step_writeRegister hr (r := .status) nofun h

/-! ### What a `CMD` write can do (10_state.md R32, 30_encoding.md R112) -/

/-- A busy engine drops every command (R274). -/
theorem exec_of_busy {s : State} (h : s.status.busy = true) (i : Instr) : exec i s = .next (overrun s) := by
  cases i <;> simp [exec, execMix32, execMix64a, execFh64, execFin32, execFin64, execFinfh, issue_busy h]

theorem issueWord_of_busy {s : State} (h : s.status.busy = true) (w : W64) : issueWord w s = .next (overrun s) := by
  simp [issueWord, h]

/-- A word that decodes is its command, whether it is dropped or not. -/
theorem issueWord_of_decode {w : W64} {i : Instr} (h : decode w = .ok i) (s : State) : issueWord w s = exec i s := by
  cases hbusy : s.status.busy with
  | true => rw [issueWord_of_busy hbusy, exec_of_busy hbusy]
  | false => simp [issueWord, hbusy, h]

/-- The command passes the length check and the caller's contract, where it is a command that has them. -/
structure Starts (i : Instr) (s : State) : Prop where
  length : rejectsLength i s = false
  contract : readsBuffer i = true → bufferRefusal s = none

/-- A hash command that is neither rejected nor refused kept the caller's contract (R87, R89). -/
theorem bufferRefusal_of_exec {i : Instr} {s t : State} (hidle : s.status.busy = false) (h : exec i s = .next t)
    (hlength : rejectsLength i s = false) (hreads : readsBuffer i = true) : bufferRefusal s = none := by
  rw [← bufferRefusal_status s (statusCleared s.status)]
  cases i with
  | mix32 =>
    rw [show exec .mix32 s = execMix32 s from rfl, execMix32, issue_idle hidle, lenTooLong_status,
      show s.lenTooLong = false from hlength] at h
    exact (acceptBuffer_eq_next h).1
  | mix64a =>
    rw [show exec .mix64a s = execMix64a s from rfl, execMix64a, issue_idle hidle, lenTooLong_status,
      show s.lenTooLong = false from hlength] at h
    exact (acceptBuffer_eq_next h).1
  | fh64 =>
    rw [show exec .fh64 s = execFh64 s from rfl, execFh64, issue_idle hidle] at h
    exact (acceptBuffer_eq_next h).1
  | fin32 | fin64 | finfh => cases hreads

/-- All the issue of a command can do: overrun, `BadLength`, or a start. -/
theorem exec_cases {i : Instr} {s t : State} (h : exec i s = .next t) :
    (s.status.busy = true ∧ t = overrun s) ∨
    (s.status.busy = false ∧ t = raiseError .badLength (clearedForIssue s)) ∨
    (s.status.busy = false ∧ Starts i s ∧ t = startState i (clearedForIssue s)) := by
  cases hbusy : s.status.busy with
  | true =>
    rw [exec_of_busy hbusy] at h
    cases h
    exact .inl ⟨rfl, rfl⟩
  | false =>
    have ht := exec_idle_eq_next hbusy h
    cases hlength : rejectsLength i s with
    | true =>
      rw [hlength, if_pos rfl] at ht
      exact .inr (.inl ⟨rfl, ht⟩)
    | false =>
      rw [hlength, if_neg Bool.false_ne_true] at ht
      exact .inr (.inr ⟨rfl, ⟨hlength, bufferRefusal_of_exec hbusy h hlength⟩, ht⟩)

/-- All a `CMD` write can do: overrun, an error, or the start of a command. -/
theorem issueWord_cases {w : W64} {s t : State} (h : issueWord w s = .next t) :
    (s.status.busy = true ∧ t = overrun s) ∨
    (s.status.busy = false ∧ ∃ c, c ≠ .none ∧ t = raiseError c (clearedForIssue s)) ∨
    (s.status.busy = false ∧ ∃ i, Starts i s ∧ t = startState i (clearedForIssue s)) := by
  cases hdecode : decode w with
  | ok i =>
    rw [issueWord_of_decode hdecode] at h
    rcases exec_cases h with hover | ⟨hidle, ht⟩ | ⟨hidle, hstarts, ht⟩
    · exact .inl hover
    · exact .inr (.inl ⟨hidle, .badLength, nofun, ht⟩)
    · exact .inr (.inr ⟨hidle, i, hstarts, ht⟩)
  | error r =>
    cases hbusy : s.status.busy with
    | true =>
      rw [issueWord_of_busy hbusy] at h
      cases h
      exact .inl ⟨rfl, rfl⟩
    | false =>
      simp only [issueWord, hbusy, hdecode, issue_idle hbusy, Bool.false_eq_true, if_false] at h
      cases h
      exact .inr (.inl ⟨rfl, .illegalCommand, nofun, rfl⟩)

/-- Settles O5: the write reaches `issueWord`, which is the command's meaning for a word that decodes to it. -/
theorem stepRunsTheDecodedCommand : Obligations.StepRunsTheDecodedCommand := by
  refine ⟨fun s w i rest h hr hdecode => ?_, fun s i => ?_⟩
  · rw [step_hostWrite hr (by decide) h]
    exact issueWord_of_decode hdecode _
  · have hword : BitVec.ofNat 64 ((encode i).toNat % 2 ^ 64) = encode i := by cases i <;> rfl
    have hinbox : (s.withFetchWord 64 (encode i).toNat).inbox = cmdWrite (encode i) :: s.inbox := by
      rw [State.withFetchWord, hword]
    exact (step_of_event hinbox).trans (takeEvent_command (s := { s with rst := false }) rfl i)

/-! ### What the start of a command sets, and what it leaves alone (30_encoding.md R112) -/

@[simp] theorem startState_status (i : Instr) (s : State) : (startState i s).status = statusAccepted s.status := by
  cases i <;> rfl

@[simp] theorem startState_data (i : Instr) (s : State) : (startState i s).data = s.data := by cases i <;> rfl
@[simp] theorem startState_len (i : Instr) (s : State) : (startState i s).len = s.len := by cases i <;> rfl
@[simp] theorem startState_seed (i : Instr) (s : State) : (startState i s).seed = s.seed := by cases i <;> rfl
@[simp] theorem startState_result (i : Instr) (s : State) : (startState i s).result = s.result := by cases i <;> rfl
@[simp] theorem startState_ie (i : Instr) (s : State) : (startState i s).ie = s.ie := by cases i <;> rfl
@[simp] theorem startState_nblk (i : Instr) (s : State) : (startState i s).nblk = s.nblk := by cases i <;> rfl
@[simp] theorem startState_x (i : Instr) (s : State) : (startState i s).x = s.x := by cases i <;> rfl
@[simp] theorem startState_y (i : Instr) (s : State) : (startState i s).y = s.y := by cases i <;> rfl
@[simp] theorem startState_salt (i : Instr) (s : State) : (startState i s).salt = s.salt := by cases i <;> rfl
@[simp] theorem startState_rst (i : Instr) (s : State) : (startState i s).rst = s.rst := by cases i <;> rfl
@[simp] theorem startState_mem (i : Instr) (s : State) : (startState i s).mem = s.mem := by cases i <;> rfl
@[simp] theorem startState_cfg (i : Instr) (s : State) : (startState i s).cfg = s.cfg := by cases i <;> rfl
@[simp] theorem startState_plat (i : Instr) (s : State) : (startState i s).plat = s.plat := by cases i <;> rfl
@[simp] theorem startState_buffers (i : Instr) (s : State) : (startState i s).buffers = s.buffers := by cases i <;> rfl
@[simp] theorem startState_rdata (i : Instr) (s : State) : (startState i s).rdata = s.rdata := by cases i <;> rfl
@[simp] theorem startState_free (i : Instr) (s : State) : (startState i s).free = s.free := by cases i <;> rfl

theorem startState_h32 {i : Instr} (hmix : i ≠ .mix32) (hfin : i ≠ .fin32) (s : State) :
    (startState i s).h32 = s.h32 := by
  cases i with
  | mix32 => exact absurd rfl hmix
  | fin32 => exact absurd rfl hfin
  | mix64a | fh64 | fin64 | finfh => rfl

theorem startState_h64 {i : Instr} (hmix : i ≠ .mix64a) (hfin : i ≠ .fin64) (s : State) :
    (startState i s).h64 = s.h64 := by
  cases i with
  | mix64a => exact absurd rfl hmix
  | fin64 => exact absurd rfl hfin
  | mix32 | fh64 | fin32 | finfh => rfl

theorem startState_ab {i : Instr} (hfh : i ≠ .fh64) (hfin : i ≠ .finfh) (s : State) :
    (startState i s).a = s.a ∧ (startState i s).b = s.b := by
  cases i with
  | fh64 => exact absurd rfl hfh
  | finfh => exact absurd rfl hfin
  | mix32 | mix64a | fin32 | fin64 => exact ⟨rfl, rfl⟩

theorem startState_cursor {i : Instr} (h32 : i ≠ .mix32) (h64 : i ≠ .mix64a) (hfh : i ≠ .fh64) (s : State) :
    (startState i s).ptr = s.ptr ∧ (startState i s).rem = s.rem := by
  cases i with
  | mix32 => exact absurd rfl h32
  | mix64a => exact absurd rfl h64
  | fh64 => exact absurd rfl hfh
  | fin32 | fin64 | finfh => exact ⟨rfl, rfl⟩

/-- An accepted command is in a phase of its own (R42). -/
theorem startState_phase_ne_idle (i : Instr) (s : State) : (startState i s).phase ≠ .idle := by
  cases i with
  | fh64 =>
    change (if (acceptedBuffer s).takesBlockPath then Phase.fhInit else .fhTail) ≠ .idle
    split <;> nofun
  | mix32 | mix64a | fin32 | fin64 | finfh => nofun

/-- A field that overrun, error entry and the command's start leave alone is left alone by its issue. -/
theorem exec_field {β : Type} (f : State → β) {i : Instr} {s t : State} (hover : f (overrun s) = f s)
    (hraise : f (raiseError .badLength (clearedForIssue s)) = f s) (hstart : f (startState i (clearedForIssue s)) = f s)
    (h : exec i s = .next t) : f t = f s := by
  rcases exec_cases h with ⟨-, rfl⟩ | ⟨-, rfl⟩ | ⟨-, -, rfl⟩
  · exact hover
  · exact hraise
  · exact hstart

/-- A field that overrun, error entry and every start leave alone is left alone by every `CMD` write. -/
theorem issueWord_field {β : Type} (f : State → β) {w : W64} {s t : State} (hover : f (overrun s) = f s)
    (hraise : ∀ c, f (raiseError c (clearedForIssue s)) = f s)
    (hstart : ∀ i, f (startState i (clearedForIssue s)) = f s) (h : issueWord w s = .next t) : f t = f s := by
  rcases issueWord_cases h with ⟨-, rfl⟩ | ⟨-, c, -, rfl⟩ | ⟨-, i, -, rfl⟩
  · exact hover
  · exact hraise c
  · exact hstart i

/-- Settles O14: field by field, by the three things an issue can be. -/
theorem issueFrame : Obligations.IssueFrame := by
  intro i s t h
  have hmem : t.mem = s.mem := exec_field State.mem rfl rfl (startState_mem i _) h
  have hplat : t.plat = s.plat := exec_field State.plat rfl rfl (startState_plat i _) h
  refine ⟨⟨?_, ?_, ?_, ?_, ?_⟩, ⟨?_, ?_, ?_, ?_⟩, fun hmix hfin => ?_, fun hmix hfin => ?_, fun hfh hfin => ?_,
    fun h32 h64 hfh => ?_, fun hidle => ?_, ⟨?_, ?_, hplat, ?_, ?_, ?_, ?_⟩, hmem, byteAnswer_congr hmem hplat⟩
  · exact exec_field State.data rfl rfl (startState_data i _) h
  · exact exec_field State.len rfl rfl (startState_len i _) h
  · exact exec_field State.seed rfl rfl (startState_seed i _) h
  · exact exec_field State.result rfl rfl (startState_result i _) h
  · exact exec_field State.ie rfl rfl (startState_ie i _) h
  · exact exec_field State.nblk rfl rfl (startState_nblk i _) h
  · exact exec_field State.x rfl rfl (startState_x i _) h
  · exact exec_field State.y rfl rfl (startState_y i _) h
  · exact exec_field State.salt rfl rfl (startState_salt i _) h
  · exact exec_field State.h32 rfl rfl (startState_h32 hmix hfin _) h
  · exact exec_field State.h64 rfl rfl (startState_h64 hmix hfin _) h
  · exact ⟨exec_field State.a rfl rfl (startState_ab hfh hfin _).1 h,
      exec_field State.b rfl rfl (startState_ab hfh hfin _).2 h⟩
  · exact ⟨exec_field State.ptr rfl rfl (startState_cursor h32 h64 hfh _).1 h,
      exec_field State.rem rfl rfl (startState_cursor h32 h64 hfh _).2 h⟩
  · rcases exec_cases h with ⟨hbusy, -⟩ | ⟨-, rfl⟩ | ⟨-, -, rfl⟩
    · exact absurd (hidle.symm.trans hbusy) Bool.false_ne_true
    · rfl
    · rw [startState_status]
      rfl
  · exact exec_field State.rst rfl rfl (startState_rst i _) h
  · exact exec_field State.cfg rfl rfl (startState_cfg i _) h
  · exact exec_field State.buffers rfl rfl (startState_buffers i _) h
  · exact exec_field State.inbox rfl rfl (startState_inbox i _) h
  · exact exec_field State.rdata rfl rfl (startState_rdata i _) h
  · exact exec_field State.free rfl rfl (startState_free i _) h

/-! ### What a turn of the engine can do (10_state.md R30, R42, R57) -/

/-- A host reads the same in every register, and the reset input is the same (R50). -/
structure SameVisible (s t : State) : Prop where
  status : t.status = s.status
  ie : t.ie = s.ie
  data : t.data = s.data
  len : t.len = s.len
  seed : t.seed = s.seed
  result : t.result = s.result
  rst : t.rst = s.rst

/-- The four ways in which a turn of the engine ends; all but the first need a busy engine out of reset. -/
inductive TurnOutcome (s : State) : State → Prop where
  /-- No step: idle, in reset, or waiting for the memory (R56, R310, U10). -/
  | stays : TurnOutcome s s
  /-- A step inside the command. -/
  | advances {t : State} (hbusy : s.status.busy = true) (hrst : s.rst = false) (hphase : t.phase ≠ .idle)
      (hvisible : SameVisible s t) : TurnOutcome s t
  /-- `BusError` (R273). -/
  | fails (hbusy : s.status.busy = true) (hrst : s.rst = false) : TurnOutcome s (raiseBusError s)
  /-- The step that completes the command (R57). -/
  | delivers (hbusy : s.status.busy = true) (hrst : s.rst = false) (v : W64) (g : W32) (h : W64) :
      TurnOutcome s (deliver v { s with h32 := g, h64 := h })

theorem TurnOutcome.onAnswer {α : Type} {s : State} {r : Answer α} {k : α → State} (hbusy : s.status.busy = true)
    (hrst : s.rst = false) (hphase : ∀ v, (k v).phase ≠ .idle) (hvisible : ∀ v, SameVisible s (k v)) :
    TurnOutcome s (onAnswer s r k) :=
  onAnswer_induct (fun v _ => .advances hbusy hrst (hphase v) (hvisible v)) (fun _ => .fails hbusy hrst) fun _ => .stays

/-- By phase: the reading phases go on or fail, the finishing ones deliver. -/
theorem phaseStep_outcome {s : State} (hbusy : s.status.busy = true) (hrst : s.rst = false) :
    TurnOutcome s (phaseStep s) := by
  unfold phaseStep
  cases hphase : s.phase with
  | idle => exact .stays
  | m32Body =>
    change TurnOutcome s (m32Body s)
    unfold m32Body
    split
    · exact .onAnswer hbusy hrst (fun _ => by simp [hphase]) fun _ => ⟨rfl, rfl, rfl, rfl, rfl, rfl, rfl⟩
    · exact .onAnswer hbusy hrst nofun fun _ => ⟨rfl, rfl, rfl, rfl, rfl, rfl, rfl⟩
  | m64Body =>
    change TurnOutcome s (m64Body s)
    unfold m64Body
    split
    · exact .onAnswer hbusy hrst (fun _ => by simp [hphase]) fun _ => ⟨rfl, rfl, rfl, rfl, rfl, rfl, rfl⟩
    · exact .onAnswer hbusy hrst nofun fun _ => ⟨rfl, rfl, rfl, rfl, rfl, rfl, rfl⟩
  | fhInit => exact .advances hbusy hrst nofun ⟨rfl, rfl, rfl, rfl, rfl, rfl, rfl⟩
  | fhOdd =>
    change TurnOutcome s (fhOddStep s)
    unfold fhOddStep
    split
    · exact .onAnswer hbusy hrst nofun fun _ => ⟨rfl, rfl, rfl, rfl, rfl, rfl, rfl⟩
    · exact .advances hbusy hrst nofun ⟨rfl, rfl, rfl, rfl, rfl, rfl, rfl⟩
  | fhBlk =>
    change TurnOutcome s (fhBlkStep s)
    unfold fhBlkStep
    split
    · exact .onAnswer hbusy hrst (fun _ => by simp [hphase]) fun _ => ⟨rfl, rfl, rfl, rfl, rfl, rfl, rfl⟩
    · split
      · exact .onAnswer hbusy hrst (fun _ => by simp [hphase]) fun _ => ⟨rfl, rfl, rfl, rfl, rfl, rfl, rfl⟩
      · exact .advances hbusy hrst nofun ⟨rfl, rfl, rfl, rfl, rfl, rfl, rfl⟩
  | fhTail => exact .onAnswer hbusy hrst nofun fun _ => ⟨rfl, rfl, rfl, rfl, rfl, rfl, rfl⟩
  | m32Fin => exact .delivers hbusy hrst _ _ s.h64
  | m64Fin => exact .delivers hbusy hrst _ s.h32 _
  | fhFin | fuOnly32 | fuOnly64 | fuOnlyFh => exact .delivers hbusy hrst _ s.h32 s.h64

theorem engineTurn_outcome (s : State) : TurnOutcome s (engineTurn s) := by
  cases hbusy : s.status.busy with
  | false => rw [engineTurn_of_idle hbusy]; exact .stays
  | true =>
    cases hrst : s.rst with
    | true => rw [engineTurn_of_reset hrst]; exact .stays
    | false => rw [engineTurn_of_busy hbusy hrst]; exact phaseStep_outcome hbusy hrst

/-! ### What a step can do (10_state.md R30) -/

/-- The kinds of step by name, with what each leads to. -/
inductive StepOutcome (s : State) : State → Prop where
  | turn (h : s.inbox = []) : StepOutcome s (engineTurn s)
  | engine {rest : List Event} (h : s.inbox = .engine :: rest) : StepOutcome s (engineTurn { s with inbox := rest })
  | read {o : BitVec 8} {rest : List Event} (h : s.inbox = .read o 8 :: rest) :
      StepOutcome s (hostRead { s with inbox := rest } o)
  | command {w : W64} {rest : List Event} {t : State} (h : s.inbox = cmdWrite w :: rest) (hrst : s.rst = false)
      (hissue : issueWord w { s with inbox := rest } = .next t) : StepOutcome s t
  | write {r : Register} {v : W64} {o : BitVec 8} {rest : List Event} (h : s.inbox = .write o 8 v :: rest)
      (hrst : s.rst = false) (hr : registerAt o = r) : StepOutcome s (writeRegister { s with inbox := rest } r v)
  | poke {p : Addr} {v : Byte} {rest : List Event} (h : s.inbox = .poke p v :: rest) :
      StepOutcome s (pokeByte p v { s with inbox := rest })
  | unmap {p : Addr} {rest : List Event} (h : s.inbox = .unmap p :: rest) :
      StepOutcome s (unmapByte p { s with inbox := rest })
  | declare {bs : List Extent} {rest : List Event} (h : s.inbox = .declare bs :: rest) :
      StepOutcome s (declareBuffers bs { s with inbox := rest })
  | assertReset {rest : List Event} (h : s.inbox = .assertReset :: rest) :
      StepOutcome s { resetEngine { s with inbox := rest } with rst := true }
  | releaseReset {rest : List Event} (h : s.inbox = .releaseReset :: rest) :
      StepOutcome s { s with inbox := rest, rst := false }

theorem step_outcome {s t : State} (hstep : step s = .next t) : StepOutcome s t := by
  rcases step_cases hstep with ⟨h, rfl⟩ | ⟨e, rest, h, he⟩
  · exact .turn h
  rcases takeEvent_cases he with ⟨rfl, rfl⟩ | ⟨o, rfl, -, -, rfl⟩ | ⟨w, rfl, hrst, hissue⟩ |
    ⟨o, v, rfl, hrst, -, -, rfl⟩ | ⟨p, v, rfl, rfl⟩ | ⟨p, rfl, rfl⟩ | ⟨bs, rfl, rfl⟩ | ⟨rfl, rfl⟩ | ⟨rfl, rfl⟩
  · exact .engine h
  · exact .read h
  · exact .command h hrst hissue
  · exact .write h hrst rfl
  · exact .poke h
  · exact .unmap h
  · exact .declare h
  · exact .assertReset h
  · exact .releaseReset h

/-! ### `RESULT` (10_state.md R38) -/

/-- The engine changes `RESULT` only where it completes the command. -/
theorem TurnOutcome.completes_of_result_ne {s t : State} (h : TurnOutcome s t) (hchange : t.result ≠ s.result) :
    s.status.busy = true ∧ t.status.busy = false ∧ t.status.done = true ∧ t.phase = .idle := by
  cases h with
  | stays | fails => exact absurd rfl hchange
  | advances _ _ _ hvisible => exact absurd hvisible.result hchange
  | delivers hbusy => exact ⟨hbusy, by simp, by simp, by simp⟩

/-- A field other than the writable registers is left alone by every register write (R33 to R39). -/
theorem writeRegister_field {β : Type} (f : State → β) (s : State) (r : Register) (v : W64)
    (h : ∀ st ie data len seed, f { s with status := st, ie := ie, data := data, len := len, seed := seed } = f s) :
    f (writeRegister s r v) = f s := by
  cases r <;> exact h _ _ _ _ _

/-- Settles O26: of all events only the engine's turn and the assertion of reset touch `RESULT`. -/
theorem resultChangesOnlyAtCompletion : Obligations.ResultChangesOnlyAtCompletion := by
  intro s t hstep hchange
  cases step_outcome hstep with
  | turn | engine => exact .inl ((engineTurn_outcome _).completes_of_result_ne hchange)
  | assertReset => exact .inr ⟨rfl, rfl⟩
  | command _ _ hissue =>
    exact absurd (issueWord_field State.result rfl (fun _ => rfl) (fun i => startState_result i _) hissue) hchange
  | write => exact absurd (writeRegister_field State.result _ _ _ fun _ _ _ _ _ => rfl) hchange
  | read | poke | unmap | declare | releaseReset => exact absurd rfl hchange

/-! ### The configuration and the memory (10_state.md R54, 20_memory.md R88) -/

@[simp] theorem engineTurn_cfg (s : State) : (engineTurn s).cfg = s.cfg :=
  engineTurn_field State.cfg s rfl (fun _ _ _ => by simp) (fun _ _ _ _ _ _ _ _ _ _ _ => rfl)

@[simp] theorem engineTurn_plat (s : State) : (engineTurn s).plat = s.plat :=
  engineTurn_field State.plat s rfl (fun _ _ _ => by simp) (fun _ _ _ _ _ _ _ _ _ _ _ => rfl)

@[simp] theorem engineTurn_mem (s : State) : (engineTurn s).mem = s.mem :=
  engineTurn_field State.mem s rfl (fun _ _ _ => by simp) (fun _ _ _ _ _ _ _ _ _ _ _ => rfl)

@[simp] theorem engineTurn_buffers (s : State) : (engineTurn s).buffers = s.buffers :=
  engineTurn_field State.buffers s rfl (fun _ _ _ => by simp) (fun _ _ _ _ _ _ _ _ _ _ _ => rfl)

theorem StepOutcome.cfg_eq {s t : State} (h : StepOutcome s t) : t.cfg = s.cfg := by
  cases h with
  | turn | engine => simp
  | command _ _ hissue => exact (issueWord_field State.cfg rfl (fun _ => rfl) (fun i => startState_cfg i _) hissue :)
  | write => exact writeRegister_field State.cfg _ _ _ fun _ _ _ _ _ => rfl
  | read | poke | unmap | declare | assertReset | releaseReset => rfl

theorem StepOutcome.plat_eq {s t : State} (h : StepOutcome s t) : t.plat = s.plat := by
  cases h with
  | turn | engine => simp
  | command _ _ hissue => exact (issueWord_field State.plat rfl (fun _ => rfl) (fun i => startState_plat i _) hissue :)
  | write => exact writeRegister_field State.plat _ _ _ fun _ _ _ _ _ => rfl
  | read | poke | unmap | declare | assertReset | releaseReset => rfl

/-- Only another agent changes the memory (R88), and at one address. -/
theorem StepOutcome.mem_cases {s t : State} (h : StepOutcome s t) :
    t.mem = s.mem ∨ (∃ p v rest, s.inbox = .poke p v :: rest ∧ t.mem = s.mem.store p.toNat v) ∨
      ∃ p rest, s.inbox = .unmap p :: rest ∧ t.mem = s.mem.erase p.toNat := by
  cases h with
  | poke hinbox => exact .inr (.inl ⟨_, _, _, hinbox, rfl⟩)
  | unmap hinbox => exact .inr (.inr ⟨_, _, hinbox, rfl⟩)
  | turn | engine => exact .inl (by simp)
  | command _ _ hissue =>
    exact .inl (issueWord_field State.mem rfl (fun _ => rfl) (fun i => startState_mem i _) hissue :)
  | write => exact .inl (writeRegister_field State.mem _ _ _ fun _ _ _ _ _ => rfl)
  | read | declare | assertReset | releaseReset => exact .inl rfl

theorem StepOutcome.buffers_cases {s t : State} (h : StepOutcome s t) :
    t.buffers = s.buffers ∨ ∃ rest, s.inbox = .declare t.buffers :: rest := by
  cases h with
  | declare hinbox => exact .inr ⟨_, hinbox⟩
  | turn | engine => exact .inl (by simp)
  | command _ _ hissue =>
    exact .inl (issueWord_field State.buffers rfl (fun _ => rfl) (fun i => startState_buffers i _) hissue :)
  | write => exact .inl (writeRegister_field State.buffers _ _ _ fun _ _ _ _ _ => rfl)
  | read | poke | unmap | assertReset | releaseReset => exact .inl rfl

/-- The answer at an address depends on the byte there and on the platform's map. -/
theorem byteAnswer_of_lookup {s t : State} {a : Addr} (hplat : t.plat = s.plat)
    (hlookup : t.mem.lookup a.toNat = s.mem.lookup a.toNat) : byteAnswer t a = byteAnswer s a := by
  simp [byteAnswer, State.silentAt, hplat, hlookup]

/-- Settles O52: no step touches the configuration, and a change of memory is one event's, at the address it names. -/
theorem configurationAndMemoryPersist : Obligations.ConfigurationAndMemoryPersist := by
  intro s t _ hstep
  have h := step_outcome hstep
  refine ⟨h.cfg_eq, h.plat_eq, fun a hchange => ?_, fun hchange => h.buffers_cases.resolve_left hchange⟩
  have hlookup : t.mem.lookup a.toNat ≠ s.mem.lookup a.toNat :=
    fun hsame => hchange (byteAnswer_of_lookup h.plat_eq hsame)
  rcases h.mem_cases with hmem | ⟨p, v, rest, hinbox, hmem⟩ | ⟨p, rest, hinbox, hmem⟩
  · exact absurd (by rw [hmem]) hlookup
  · have hp : a = p := by
      by_contra hne
      exact hlookup (by rw [hmem, Memory.lookup_store_other _ _ _ _ (BitVec.toNat_ne_iff_ne.2 hne)])
    exact ⟨rest, .inr ⟨v, hp ▸ hinbox⟩⟩
  · have hp : a = p := by
      by_contra hne
      exact hlookup (by rw [hmem, Memory.lookup_erase_other _ _ _ (BitVec.toNat_ne_iff_ne.2 hne)])
    exact ⟨rest, .inl (hp ▸ hinbox)⟩

/-! ### The interrupt output (10_state.md R40, 60_exceptions.md R281) -/

theorem irq_iff (s : State) : s.irq = true ↔ s.ie = true ∧ (s.status.done = true ∨ s.status.err = true) := by
  simp [State.irq]

/-- `IE` is the same and neither `DONE` nor `ERR` is lost. -/
structure KeepsFlags (s t : State) : Prop where
  ie : t.ie = s.ie
  done : s.status.done = true → t.status.done = true
  err : s.status.err = true → t.status.err = true

theorem TurnOutcome.keepsFlags {s t : State} (h : TurnOutcome s t) : KeepsFlags s t := by
  cases h with
  | stays => exact ⟨rfl, id, id⟩
  | advances _ _ _ hvisible => exact ⟨hvisible.ie, hvisible.status ▸ id, hvisible.status ▸ id⟩
  | fails => exact ⟨rfl, id, fun _ => rfl⟩
  | delivers => exact ⟨by simp, fun _ => by simp, fun herr => by simpa using herr⟩

/-- What an issue at an idle engine leaves in the flags that make `irq`. -/
theorem issueWord_idle_flags {w : W64} {s t : State} (hidle : s.status.busy = false) (h : issueWord w s = .next t) :
    t.ie = s.ie ∧ t.status.done = false ∧ (t.status.busy = true → t.status.err = false) := by
  rcases issueWord_cases h with ⟨hbusy, -⟩ | ⟨-, c, -, rfl⟩ | ⟨-, i, -, rfl⟩
  · exact absurd (hidle.symm.trans hbusy) Bool.false_ne_true
  · exact ⟨rfl, rfl, nofun⟩
  · exact ⟨by simp [clearedForIssue], by simp [clearedForIssue], by simp [clearedForIssue]⟩

/-- What each step does to `IE`, `DONE` and `ERR`: only a `STATUS` write, an issue at an idle engine and reset can lose
a flag, and only a `CTRL` write and reset change `IE`. -/
theorem StepOutcome.irq_cases {s t : State} (h : StepOutcome s t) :
    KeepsFlags s t ∨
    (∃ v rest, s.inbox = .write 0x08 8 v :: rest ∧ t.ie = s.ie ∧
      t.status.done = (s.status.done && !v.getLsbD 1) ∧ t.status.err = (s.status.err && !v.getLsbD 2)) ∨
    (∃ v rest, s.inbox = .write 0x10 8 v :: rest ∧ t.ie = v.getLsbD 0 ∧ t.status = s.status) ∨
    (∃ w rest, s.inbox = cmdWrite w :: rest ∧ s.status.busy = false ∧ t.ie = s.ie ∧ t.status.done = false) ∨
    ∃ rest, s.inbox = .assertReset :: rest ∧ t.ie = false ∧ t.status = .reset := by
  cases h with
  | turn => exact .inl (engineTurn_outcome s).keepsFlags
  | @engine rest =>
    obtain ⟨hie, hdone, herr⟩ := (engineTurn_outcome { s with inbox := rest }).keepsFlags
    exact .inl ⟨hie, hdone, herr⟩
  | read | poke | unmap | declare | releaseReset => exact .inl ⟨rfl, id, id⟩
  | assertReset hinbox => exact .inr (.inr (.inr (.inr ⟨_, hinbox, rfl, rfl⟩)))
  | @command w rest _ hinbox _ hissue =>
    cases hbusy : s.status.busy with
    | true =>
      rw [issueWord_of_busy (s := { s with inbox := rest }) hbusy] at hissue
      cases hissue
      exact .inl ⟨rfl, id, id⟩
    | false =>
      obtain ⟨hie, hdone, -⟩ := issueWord_idle_flags (s := { s with inbox := rest }) hbusy hissue
      exact .inr (.inr (.inr (.inl ⟨_, _, hinbox, rfl, hie, hdone⟩)))
  | @write r v o rest hinbox _ hr =>
    cases r with
    | status =>
      rw [eq_offsetOf_of_registerAt hr nofun] at hinbox
      exact .inr (.inl ⟨v, rest, hinbox, rfl, rfl, rfl⟩)
    | ctrl =>
      rw [eq_offsetOf_of_registerAt hr nofun] at hinbox
      exact .inr (.inr (.inl ⟨v, rest, hinbox, rfl, rfl⟩))
    | cmd | data | len | seed | result | reserved => exact .inl ⟨rfl, id, id⟩

/-- A step raises `irq` by a flag under `IE`, or by `IE` under a flag. -/
theorem StepOutcome.irq_rises {s t : State} (h : StepOutcome s t) (hlow : s.irq = false) (hhigh : t.irq = true) :
    (s.ie = true ∧
      ((s.status.done = false ∧ t.status.done = true) ∨ (s.status.err = false ∧ t.status.err = true))) ∨
    ∃ (v : W64) (rest : List Event), s.inbox = .write 0x10 8 v :: rest ∧ v.getLsbD 0 = true ∧
      (s.status.done = true ∨ s.status.err = true) := by
  obtain ⟨hie, hflag⟩ := (irq_iff t).1 hhigh
  have hset (hsame : t.ie = s.ie) : s.ie = true ∧
      ((s.status.done = false ∧ t.status.done = true) ∨ (s.status.err = false ∧ t.status.err = true)) := by
    have hie' : s.ie = true := hsame ▸ hie
    simp only [State.irq, hie', Bool.true_and, Bool.or_eq_false_iff] at hlow
    exact ⟨hie', hflag.imp (⟨hlow.1, ·⟩) (⟨hlow.2, ·⟩)⟩
  rcases h.irq_cases with hkeeps | ⟨v, rest, -, hsame, -⟩ | ⟨v, rest, hinbox, hctrl, hstatus⟩ |
    ⟨w, rest, -, -, hsame, -⟩ | ⟨rest, -, hreset, -⟩
  · exact .inl (hset hkeeps.ie)
  · exact .inl (hset hsame)
  · exact .inr ⟨v, rest, hinbox, hctrl ▸ hie, hstatus ▸ hflag⟩
  · exact .inl (hset hsame)
  · exact absurd (hie.symm.trans hreset) Bool.noConfusion

/-- A flag that a step sets while `IE` is 1 makes `irq` 1: the steps that change `IE` set no flag. -/
theorem StepOutcome.irq_of_set {s t : State} (h : StepOutcome s t) (hie : s.ie = true)
    (hset : (s.status.done = false ∧ t.status.done = true) ∨ (s.status.err = false ∧ t.status.err = true)) :
    t.irq = true := by
  have hflag : t.status.done = true ∨ t.status.err = true := hset.imp And.right And.right
  have hhigh (hsame : t.ie = s.ie) : t.irq = true := (irq_iff t).2 ⟨hsame.trans hie, hflag⟩
  rcases h.irq_cases with hkeeps | ⟨v, rest, -, hsame, -⟩ | ⟨v, rest, -, -, hstatus⟩ |
    ⟨w, rest, -, -, hsame, -⟩ | ⟨rest, -, -, hstatus⟩
  · exact hhigh hkeeps.ie
  · exact hhigh hsame
  · simp [hstatus] at hset
  · exact hhigh hsame
  · simp [hstatus, Status.reset] at hflag

/-- A step lowers `irq` only where it may lose a flag or `IE`. -/
theorem StepOutcome.irq_falls {s t : State} (h : StepOutcome s t) (hhigh : s.irq = true) (hlow : t.irq = false) :
    (∃ (v : W64) (rest : List Event), s.inbox = .write 0x08 8 v :: rest ∧
      (s.status.done = true → v.getLsbD 1 = true) ∧ (s.status.err = true → v.getLsbD 2 = true)) ∨
    (∃ (v : W64) (rest : List Event), s.inbox = .write 0x10 8 v :: rest ∧ v.getLsbD 0 = false) ∨
    (∃ (w : W64) (rest : List Event), s.inbox = cmdWrite w :: rest ∧ s.status.busy = false) ∨
    ∃ rest : List Event, s.inbox = .assertReset :: rest := by
  obtain ⟨hie, hflag⟩ := (irq_iff s).1 hhigh
  rcases h.irq_cases with hkeeps | ⟨v, rest, hinbox, hsame, hdone, herr⟩ | ⟨v, rest, hinbox, hctrl, hstatus⟩ |
    ⟨w, rest, hinbox, hidle, -⟩ | ⟨rest, hinbox, -⟩
  · have hstill : t.irq = true := (irq_iff t).2 ⟨hkeeps.ie.trans hie, hflag.imp hkeeps.done hkeeps.err⟩
    exact absurd (hstill.symm.trans hlow) Bool.noConfusion
  · simp only [State.irq, hsame, hie, hdone, herr, Bool.true_and, Bool.or_eq_false_iff] at hlow
    exact .inl ⟨v, rest, hinbox, fun hd => by simpa [hd] using hlow.1, fun he => by simpa [he] using hlow.2⟩
  · have hflag' : (t.status.done || t.status.err) = true := by simpa [hstatus] using hflag
    rw [State.irq, hflag', Bool.and_true, hctrl] at hlow
    exact .inr (.inl ⟨v, rest, hinbox, hlow⟩)
  · exact .inr (.inr (.inl ⟨w, rest, hinbox, hidle⟩))
  · exact .inr (.inr (.inr ⟨rest, hinbox⟩))

/-- Settles O45: the level is the definition, rises and falls come from `StepOutcome.irq_cases`, and the writes are
those of R33, R34 and R112. -/
theorem irqRisesOnlyForItsCauses : Obligations.IrqRisesOnlyForItsCauses := by
  refine ⟨⟨irq_iff, fun _ _ => rfl⟩, fun s t hstep => ?_, fun s v rest hrst => ⟨fun h => ?_, fun h => ?_⟩,
    fun s t w rest hinbox hidle hstep => ?_⟩
  · have h := step_outcome hstep
    exact ⟨h.irq_rises, h.irq_of_set, h.irq_falls⟩
  · refine ⟨_, step_writeRegister hrst (r := .status) nofun h, ?_⟩
    simp [irq_iff, writeRegister]
  · refine ⟨_, step_writeRegister hrst (r := .ctrl) nofun h, ?_⟩
    simp [irq_iff, writeRegister]
  · have hissue : issueWord w { s with inbox := rest } = .next t := by
      rw [step_of_event hinbox] at hstep
      exact (guardAccess_eq_next.1 hstep).2.2.2
    obtain ⟨hie, hdone, herr⟩ := issueWord_idle_flags (s := { s with inbox := rest }) hidle hissue
    have hirq : t.irq = true ↔ s.ie = true ∧ t.status.err = true := by simp [irq_iff, hie, hdone]
    exact ⟨hdone, fun hbusy => by simp [State.irq, hdone, herr hbusy], hirq⟩

end Sys2Proof.Machine

/-!
# 10_state.md: the invariants of the machine

The flags agree with the phase, and the cursor and the counts with the buffer latched at issue, at reset and after every
step.
-/

namespace Sys2Proof.Machine

/-! ### The flags and the phase (10_state.md R33, R42) -/

/-- The part of `StatusInv` that speaks of the flags and the phase. -/
structure FlagsAgree (st : Status) (ph : Phase) : Prop where
  busy_iff : st.busy = true ↔ ph ≠ .idle
  not_both : ¬(st.done = true ∧ st.err = true)
  busy_clear : st.busy = true → st.done = false ∧ st.err = false
  ecode_iff : st.err = true ↔ st.ecode ≠ .none

theorem StatusInv.flagsAgree {s : State} (h : StatusInv s) : FlagsAgree s.status s.phase :=
  ⟨h.busy_iff, h.not_both, h.busy_clear, h.ecode_iff⟩

/-- Out of reset the flags and the phase are all there is to `StatusInv`. -/
theorem FlagsAgree.statusInv {s : State} (h : FlagsAgree s.status s.phase) (hrst : s.rst = false) : StatusInv s :=
  ⟨h.busy_iff, h.not_both, h.busy_clear, h.ecode_iff, fun hr => absurd (hrst.symm.trans hr) Bool.false_ne_true⟩

theorem FlagsAgree.completed {st : Status} {ph : Phase} (h : FlagsAgree st ph) (hbusy : st.busy = true) :
    FlagsAgree (statusCompleted st) .idle where
  busy_iff := by simp
  not_both := by simp [h.busy_clear hbusy]
  busy_clear := nofun
  ecode_iff := h.ecode_iff

theorem FlagsAgree.raised {st : Status} {c : ECode} (hdone : st.done = false) (hc : c ≠ .none) :
    FlagsAgree (statusRaised c st) .idle where
  busy_iff := by simp
  not_both := by simp [hdone]
  busy_clear := nofun
  ecode_iff := by simpa using hc

theorem FlagsAgree.accepted (st : Status) {ph : Phase} (hph : ph ≠ .idle) :
    FlagsAgree (statusAccepted (statusCleared st)) ph where
  busy_iff := by simpa using hph
  not_both := by simp
  busy_clear _ := ⟨rfl, rfl⟩
  ecode_iff := by simp

theorem FlagsAgree.overrun {st : Status} {ph : Phase} (h : FlagsAgree st ph) : FlagsAgree (statusOverrun st) ph :=
  ⟨h.busy_iff, h.not_both, h.busy_clear, h.ecode_iff⟩

theorem FlagsAgree.afterWrite {st : Status} {ph : Phase} (h : FlagsAgree st ph) (w : W64) :
    FlagsAgree (statusAfterWrite w st) ph where
  busy_iff := h.busy_iff
  not_both := by
    have := h.not_both
    simp only [statusAfterWrite_done, statusAfterWrite_err, Bool.and_eq_true]
    tauto
  busy_clear hbusy := by simp [h.busy_clear hbusy]
  ecode_iff := by
    rw [statusAfterWrite_err, statusAfterWrite_ecode]
    cases w.getLsbD 2 with
    | true => simp
    | false => simpa using h.ecode_iff

theorem FlagsAgree.reset : FlagsAgree .reset .idle := ⟨by decide, by decide, by decide, by decide⟩

theorem TurnOutcome.keeps_statusInv {s t : State} (h : TurnOutcome s t) (hs : StatusInv s) : StatusInv t := by
  cases h with
  | stays => exact hs
  | advances hbusy hrst hphase hvisible =>
    have hflags : FlagsAgree s.status t.phase :=
      { hs.flagsAgree with busy_iff := iff_of_true hbusy hphase }
    exact FlagsAgree.statusInv (hvisible.status ▸ hflags) (hvisible.rst.trans hrst)
  | fails hbusy hrst => exact (FlagsAgree.raised (c := .busError) (hs.busy_clear hbusy).1 nofun).statusInv hrst
  | delivers hbusy hrst v g h =>
    refine FlagsAgree.statusInv ?_ (by simpa using hrst)
    rw [deliver_status, deliver_phase]
    exact hs.flagsAgree.completed hbusy

theorem issueWord_keeps_statusInv {w : W64} {s t : State} (hs : StatusInv s) (hrst : s.rst = false)
    (h : issueWord w s = .next t) : StatusInv t := by
  rcases issueWord_cases h with ⟨-, rfl⟩ | ⟨-, c, hc, rfl⟩ | ⟨-, i, -, rfl⟩
  · exact hs.flagsAgree.overrun.statusInv hrst
  · exact (FlagsAgree.raised (st := statusCleared s.status) rfl hc).statusInv hrst
  · refine FlagsAgree.statusInv ?_ ((startState_rst i _).trans hrst)
    rw [startState_status]
    exact .accepted s.status (startState_phase_ne_idle i _)

theorem writeRegister_keeps_statusInv {s : State} (hs : StatusInv s) (hrst : s.rst = false) (r : Register) (v : W64) :
    StatusInv (writeRegister s r v) := by
  cases r with
  | status => exact (hs.flagsAgree.afterWrite v).statusInv hrst
  | cmd | ctrl | data | len | seed | result | reserved => exact FlagsAgree.statusInv hs.flagsAgree hrst

/-- Settles O49: the engine, an issue and a register write have their own lemmas, reset establishes the invariant, and
the other steps touch nothing it speaks of. -/
theorem stepKeepsStatusInv : Obligations.StepKeepsStatusInv := by
  intro s t hs hstep
  have consumed (rest : List Event) : StatusInv { s with inbox := rest } := { hs with }
  cases step_outcome hstep with
  | turn => exact (engineTurn_outcome s).keeps_statusInv hs
  | @engine rest => exact (engineTurn_outcome _).keeps_statusInv (consumed rest)
  | @command _ rest _ _ hrst hissue => exact issueWord_keeps_statusInv (consumed rest) hrst hissue
  | @write _ _ _ rest _ hrst => exact writeRegister_keeps_statusInv (consumed rest) hrst _ _
  | assertReset => exact { FlagsAgree.reset with reset_held := fun _ => ⟨rfl, rfl, rfl, rfl, rfl, rfl⟩ }
  | releaseReset => exact FlagsAgree.statusInv hs.flagsAgree rfl
  | read | poke | unmap | declare => exact { hs with }

/-! ### The buffer latched at issue and the cursor in it (10_state.md R43 to R45, 20_memory.md R84) -/

/-- The bounds on the counts that the current phase relies on (R184, R202, R272). -/
def State.countsBounded (s : State) : Prop :=
  match s.phase with
  | .m32Body | .m64Body => s.bufLen.toNat < 2 ^ 31
  | .fhInit => 32 < s.rem.toNat
  | .fhOdd => 2 ≤ s.nblk.toNat ∧ s.rem.toNat < 16
  | .fhBlk => s.nblk.toNat % 2 = 0 ∧ s.rem.toNat < 16
  | .fhTail => s.rem.toNat ≤ 32
  | .idle | .m32Fin | .m64Fin | .fhFin | .fuOnly32 | .fuOnly64 | .fuOnlyFh => True

/-- The bounds of the phases are the last five clauses of `CursorInv`. -/
theorem countsBounded_iff (s : State) :
    s.countsBounded ↔
      ((s.phase = .m32Body ∨ s.phase = .m64Body) → s.bufLen.toNat < 2 ^ 31) ∧
      (s.phase = .fhInit → 32 < s.rem.toNat) ∧
      (s.phase = .fhOdd → 2 ≤ s.nblk.toNat ∧ s.rem.toNat < 16) ∧
      (s.phase = .fhBlk → s.nblk.toNat % 2 = 0 ∧ s.rem.toNat < 16) ∧
      (s.phase = .fhTail → s.rem.toNat ≤ 32) := by
  unfold State.countsBounded
  cases s.phase <;> simp

theorem CursorInv.countsBounded {s : State} (h : CursorInv s) : s.countsBounded :=
  (countsBounded_iff s).2 ⟨h.int32_len, h.init_long, h.odd_blocks, h.even_blocks, h.tail_short⟩

/-- The engine is as busy as before, with the same buffer, the same record of it and the same map around it. -/
structure SameBuffer (s t : State) : Prop where
  busy : t.status.busy = s.status.busy
  base : t.bufBase = s.bufBase
  len : t.bufLen = s.bufLen
  ranges : t.sideEffectRanges = s.sideEffectRanges
  buffers : t.buffers = s.buffers
  strayed : t.strayed = s.strayed

/-- The invariant at the same buffer, from what it says of the cursor and the counts. -/
theorem CursorInv.of_sameBuffer {s t : State} (hs : CursorInv s) (hsame : SameBuffer s t)
    (hleft : s.status.busy = true → t.bytesLeft ≤ s.bufLen.toNat)
    (hcursor : s.status.busy = true → t.phase.finalizeOnly = false →
      t.ptr = s.bufBase + BitVec.ofNat 64 (s.bufLen.toNat - t.bytesLeft))
    (hcounts : t.countsBounded) : CursorInv t := by
  obtain ⟨hint32, hinit, hodd, heven, htail⟩ := (countsBounded_iff t).1 hcounts
  refine ⟨?_, ?_, ?_, ?_, ?_, hint32, hinit, hodd, heven, htail⟩
  all_goals simp only [hsame.busy, hsame.base, hsame.len, hsame.ranges, hsame.buffers, hsame.strayed]
  · exact hs.no_wrap
  · exact hs.no_side_effect
  · exact hs.true_buffer
  · exact hleft
  · exact hcursor

/-- A step that moves the cursor over `k` bytes and counts them off keeps the invariant. -/
theorem CursorInv.consume {s t : State} (hs : CursorInv s) (hbusy : s.status.busy = true) (hsame : SameBuffer s t)
    (k : Nat) (hphase : s.phase.finalizeOnly = false) (hptr : t.ptr = s.ptr + BitVec.ofNat 64 k)
    (hleft : t.bytesLeft + k = s.bytesLeft) (hcounts : t.countsBounded) : CursorInv t := by
  have hle := hs.left_le hbusy
  refine hs.of_sameBuffer hsame (fun _ => by omega) (fun _ _ => ?_) hcounts
  have hgone : s.bufLen.toNat - t.bytesLeft = s.bufLen.toNat - s.bytesLeft + k := by omega
  rw [hptr, hs.cursor hbusy hphase, hgone, BitVec.ofNat_add, BitVec.add_assoc]

/-- A step that leaves the cursor and the counts alone keeps the invariant, in whatever phase. -/
theorem CursorInv.of_sameCounts {s t : State} (hs : CursorInv s) (hsame : SameBuffer s t) (hphase : t.phase = s.phase)
    (hptr : t.ptr = s.ptr) (hrem : t.rem = s.rem) (hnblk : t.nblk = s.nblk) : CursorInv t := by
  have hbytes : t.bytesLeft = s.bytesLeft := by simp only [State.bytesLeft, hphase, hrem, hnblk]
  refine hs.of_sameBuffer hsame ?_ ?_ ?_
  · rw [hbytes]
    exact hs.left_le
  · rw [hbytes, hptr, hphase]
    exact hs.cursor
  · simpa only [State.countsBounded, hphase, hrem, hnblk, hsame.len] using hs.countsBounded

/-- An engine that has ended its command has no cursor to keep. -/
theorem cursorInv_of_ended {s : State} (hbusy : s.status.busy = false) (hphase : s.phase = .idle) : CursorInv s := by
  constructor <;> simp [hbusy, hphase]

theorem CursorInv.onAnswer {α : Type} {s : State} {r : Answer α} {k : α → State} (hs : CursorInv s)
    (hk : ∀ v, r = .value v → CursorInv (k v)) : CursorInv (onAnswer s r k) :=
  onAnswer_induct hk (fun _ => cursorInv_of_ended rfl rfl) fun _ => hs

theorem cursorInv_deliver (v : W64) (s : State) : CursorInv (deliver v s) :=
  cursorInv_of_ended (by simp) (by simp)

/-! ### Each phase keeps the cursor (40_mix32.md R142, R143; 41_mix64a.md R162, R163) -/

theorem m32Body_keeps_cursorInv {s : State} (hs : CursorInv s) (hbusy : s.status.busy = true)
    (hph : s.phase = .m32Body) : CursorInv (m32Body s) := by
  have hcounts := hs.int32_len (.inl hph)
  unfold m32Body
  split
  · refine hs.onAnswer fun v _ => hs.consume hbusy ⟨rfl, rfl, rfl, rfl, rfl, rfl⟩ 4 (hph ▸ rfl) rfl ?_
      (by simpa [State.countsBounded, hph] using hcounts)
    simp only [State.bytesLeft, hph]
    bv_omega
  · refine hs.onAnswer fun v _ => hs.consume hbusy ⟨rfl, rfl, rfl, rfl, rfl, rfl⟩ s.rem.toNat (hph ▸ rfl)
      (by simp) ?_ trivial
    simp [State.bytesLeft, hph]

theorem m64Body_keeps_cursorInv {s : State} (hs : CursorInv s) (hbusy : s.status.busy = true)
    (hph : s.phase = .m64Body) : CursorInv (m64Body s) := by
  have hcounts := hs.int32_len (.inr hph)
  unfold m64Body
  split
  · refine hs.onAnswer fun v _ => hs.consume hbusy ⟨rfl, rfl, rfl, rfl, rfl, rfl⟩ 8 (hph ▸ rfl) rfl ?_
      (by simpa [State.countsBounded, hph] using hcounts)
    simp only [State.bytesLeft, hph]
    bv_omega
  · refine hs.onAnswer fun v _ => hs.consume hbusy ⟨rfl, rfl, rfl, rfl, rfl, rfl⟩ s.rem.toNat (hph ▸ rfl)
      (by simp) ?_ trivial
    simp [State.bytesLeft, hph]

/-! ### The phases of `FH64` (43_fasthash64_block.md R201 to R203, 42_fasthash64_scalar.md R182) -/

theorem toNat_shiftRight_four (r : W64) : (r >>> 4).toNat = r.toNat / 16 := by
  simp [Nat.shiftRight_eq_div_pow]

theorem toNat_and_fifteen (r : W64) : (r &&& 15).toNat = r.toNat % 16 := by
  simpa using Nat.and_two_pow_sub_one_eq_mod r.toNat 4

theorem fhInitStep_keeps_cursorInv {s : State} (hs : CursorInv s) (hbusy : s.status.busy = true)
    (hph : s.phase = .fhInit) : CursorInv (fhInitStep s) := by
  have hlong := hs.init_long hph
  refine hs.consume hbusy ⟨rfl, rfl, rfl, rfl, rfl, rfl⟩ 0 (hph ▸ rfl) (by simp [fhInitStep]) ?_ ?_
  · simp only [State.bytesLeft, fhInitStep, hph, toNat_shiftRight_four, toNat_and_fifteen]
    omega
  · simp only [State.countsBounded, fhInitStep, toNat_shiftRight_four, toNat_and_fifteen]
    omega

theorem fhOddStep_keeps_cursorInv {s : State} (hs : CursorInv s) (hbusy : s.status.busy = true)
    (hph : s.phase = .fhOdd) : CursorInv (fhOddStep s) := by
  obtain ⟨hblocks, hrem⟩ := hs.odd_blocks hph
  have hodd : s.nblk.getLsbD 0 = decide (s.nblk.toNat % 2 = 1) := by
    simp [BitVec.getLsbD, Nat.testBit_zero]
  unfold fhOddStep
  split
  case isTrue h =>
    rw [hodd, decide_eq_true_eq] at h
    have hnblk : (s.nblk - 1).toNat = s.nblk.toNat - 1 := by bv_omega
    refine hs.onAnswer fun v _ => hs.consume hbusy ⟨rfl, rfl, rfl, rfl, rfl, rfl⟩ 16 (hph ▸ rfl) rfl ?_ ?_
    · simp only [State.bytesLeft, hph, hnblk]
      omega
    · simp only [State.countsBounded, hnblk]
      omega
  case isFalse h =>
    rw [hodd, decide_eq_true_eq] at h
    refine hs.consume hbusy ⟨rfl, rfl, rfl, rfl, rfl, rfl⟩ 0 (hph ▸ rfl) (by simp) ?_ ?_
    · simp [State.bytesLeft, hph]
    · simp only [State.countsBounded]
      omega

theorem fhBlkStep_keeps_cursorInv {s : State} (hs : CursorInv s) (hbusy : s.status.busy = true)
    (hph : s.phase = .fhBlk) : CursorInv (fhBlkStep s) := by
  obtain ⟨heven, hrem⟩ := hs.even_blocks hph
  have hfin : s.phase.finalizeOnly = false := hph ▸ rfl
  unfold fhBlkStep
  split
  · have hnblk : (s.nblk - 8).toNat = s.nblk.toNat - 8 := by bv_omega
    refine hs.onAnswer fun v _ => hs.consume hbusy ⟨rfl, rfl, rfl, rfl, rfl, rfl⟩ 128 hfin rfl ?_ ?_
    · simp only [State.bytesLeft, hph, hnblk]
      omega
    · simp only [State.countsBounded, hph, hnblk]
      omega
  · split
    · have hnblk : (s.nblk - 2).toNat = s.nblk.toNat - 2 := by bv_omega
      refine hs.onAnswer fun v _ => hs.consume hbusy ⟨rfl, rfl, rfl, rfl, rfl, rfl⟩ 32 hfin rfl ?_ ?_
      · simp only [State.bytesLeft, hph, hnblk]
        omega
      · simp only [State.countsBounded, hph, hnblk]
        omega
    · refine hs.consume hbusy ⟨rfl, rfl, rfl, rfl, rfl, rfl⟩ 0 hfin (by simp [fhCombStep]) ?_ ?_
      · simp only [State.bytesLeft, fhCombStep, hph]
        omega
      · simp only [State.countsBounded, fhCombStep]
        omega

/-- A bracket that fires moves the address over its bytes, one that does not leaves it (R182). -/
theorem bracketIf_ptr {fires : Bool} {s : State} {p : W64} {n : Nat} {acc : W64} {ptr : Addr} {q : W64 × Addr}
    (h : bracketIf fires s p n acc ptr = .value q) : q.2 = ptr + BitVec.ofNat 64 (if fires then n else 0) := by
  cases fires with
  | true =>
    obtain ⟨v, -, rfl⟩ := Answer.map_eq_value.1 h
    rfl
  | false =>
    cases h
    simp

/-- The four brackets of a tail of at most 32 bytes read the whole tail (R182, R184). -/
theorem brackets_ptr {s : State} {r : Nat} (hr : r ≤ 32) {q : W64 × W64 × Addr} (h : brackets s r = .value q) :
    q.2.2 = s.ptr + BitVec.ofNat 64 r := by
  obtain ⟨q4, h4, h⟩ := Answer.andThen_eq_value.1 h
  obtain ⟨q3, h3, h⟩ := Answer.andThen_eq_value.1 h
  obtain ⟨q2, h2, h⟩ := Answer.andThen_eq_value.1 h
  obtain ⟨q1, h1, rfl⟩ := Answer.map_eq_value.1 h
  have hsum : (if 24 < r then 8 else 0) + (if 16 < r then 8 else 0) + (if 8 < r then 8 else 0) +
      (if 0 < r then (r - 1) % 8 + 1 else 0) = r := by
    split_ifs <;> omega
  change q1.2 = _
  rw [bracketIf_ptr h1, bracketIf_ptr h2, bracketIf_ptr h3, bracketIf_ptr h4]
  simp only [decide_eq_true_eq, BitVec.add_assoc, ← BitVec.ofNat_add, hsum]

theorem fhTailStep_keeps_cursorInv {s : State} (hs : CursorInv s) (hbusy : s.status.busy = true)
    (hph : s.phase = .fhTail) : CursorInv (fhTailStep s) := by
  refine hs.onAnswer fun q hq => hs.consume hbusy ⟨rfl, rfl, rfl, rfl, rfl, rfl⟩ s.rem.toNat
    (hph ▸ rfl) (brackets_ptr (hs.tail_short hph) hq) ?_ trivial
  simp [State.bytesLeft, hph]

/-- By phase: the reading phases have their own lemma, the finishing ones end the command. -/
theorem phaseStep_keeps_cursorInv {s : State} (hs : CursorInv s) (hbusy : s.status.busy = true) :
    CursorInv (phaseStep s) := by
  unfold phaseStep
  cases hph : s.phase with
  | idle => exact hs
  | m32Body => exact m32Body_keeps_cursorInv hs hbusy hph
  | m64Body => exact m64Body_keeps_cursorInv hs hbusy hph
  | fhInit => exact fhInitStep_keeps_cursorInv hs hbusy hph
  | fhOdd => exact fhOddStep_keeps_cursorInv hs hbusy hph
  | fhBlk => exact fhBlkStep_keeps_cursorInv hs hbusy hph
  | fhTail => exact fhTailStep_keeps_cursorInv hs hbusy hph
  | m32Fin | m64Fin | fhFin | fuOnly32 | fuOnly64 | fuOnlyFh => exact cursorInv_deliver _ _

theorem engineTurn_keeps_cursorInv {s : State} (hs : CursorInv s) : CursorInv (engineTurn s) := by
  unfold engineTurn
  split
  case isTrue h => exact phaseStep_keeps_cursorInv hs (Bool.and_eq_true_iff.1 h).1
  case isFalse => exact hs

/-! ### Where the cursor starts (40_mix32.md R141, 41_mix64a.md R161, 42_fasthash64_scalar.md R181) -/

/-- A hash command within the contract starts at the first byte of its buffer. -/
theorem cursorInv_of_acceptedBuffer {s t : State} (hcontract : bufferRefusal s = none)
    (hsame : SameBuffer (acceptedBuffer s) t) (hptr : t.ptr = s.data) (hleft : t.bytesLeft = s.len.toNat)
    (hcounts : t.countsBounded) : CursorInv t := by
  obtain ⟨hwrap, hranges⟩ := bufferRefusal_eq_none.1 hcontract
  obtain ⟨hint32, hinit, hodd, heven, htail⟩ := (countsBounded_iff t).1 hcounts
  refine ⟨?_, ?_, ?_, ?_, ?_, hint32, hinit, hodd, heven, htail⟩
  all_goals simp only [hsame.base, hsame.len, hsame.ranges, hsame.buffers, hsame.strayed]
  · exact fun _ => hwrap
  · exact fun _ => hranges
  · exact fun _ hstrayed => by simpa [acceptedBuffer] using hstrayed
  · exact fun _ => hleft.le
  · exact fun _ _ => by simp [hptr, hleft, acceptedBuffer]

/-- A finalize-only command has an empty buffer and nothing to read (R251). -/
theorem cursorInv_of_finalizeOnly {s : State} (hphase : s.phase.finalizeOnly = true) (hlen : s.bufLen = 0) :
    CursorInv s := by
  have hbase := s.bufBase.isLt
  have hleft : s.bytesLeft = 0 ∧ s.countsBounded := by
    unfold State.bytesLeft State.countsBounded
    cases hph : s.phase <;> simp [hph, Phase.finalizeOnly] at hphase ⊢
  obtain ⟨hint32, hinit, hodd, heven, htail⟩ := (countsBounded_iff s).1 hleft.2
  refine ⟨?_, ?_, ?_, ?_, ?_, hint32, hinit, hodd, heven, htail⟩
  · exact fun _ => by simpa [hlen] using hbase.le
  · exact fun _ => by simp [hlen, Region.meets]
  · exact fun _ _ => by simp [hlen]
  · exact fun _ => by simp [hleft.1]
  · exact fun _ hnot => absurd (hphase.symm.trans hnot) Bool.noConfusion

theorem initFh64_phase (s : State) : (initFh64 s).phase = if 32 < s.len.toNat then .fhInit else .fhTail := by
  simp [initFh64, State.takesBlockPath]

theorem startState_cursorInv {i : Instr} {s : State} (h : Starts i s) :
    CursorInv (startState i (clearedForIssue s)) := by
  have hcontract (hreads : readsBuffer i = true) : bufferRefusal (clearedForIssue s) = none := h.contract hreads
  have hlen32 (hshort : s.lenTooLong = false) : s.len.toNat < 2 ^ 31 := by
    rw [← Nat.not_le, ← lenTooLong_iff, hshort]
    exact Bool.false_ne_true
  cases i with
  | mix32 =>
    exact cursorInv_of_acceptedBuffer (hcontract rfl) ⟨rfl, rfl, rfl, rfl, rfl, rfl⟩ rfl rfl (hlen32 h.length)
  | mix64a =>
    exact cursorInv_of_acceptedBuffer (hcontract rfl) ⟨rfl, rfl, rfl, rfl, rfl, rfl⟩ rfl rfl (hlen32 h.length)
  | fh64 =>
    change CursorInv (initFh64 (acceptedBuffer (clearedForIssue s)))
    have hphase := initFh64_phase (acceptedBuffer (clearedForIssue s))
    refine cursorInv_of_acceptedBuffer (hcontract rfl) ⟨rfl, rfl, rfl, rfl, rfl, rfl⟩ rfl ?_ ?_
    · unfold State.bytesLeft
      rw [hphase]
      split_ifs <;> rfl
    · unfold State.countsBounded
      rw [hphase]
      split_ifs with hlong
      · exact hlong
      · exact Nat.not_lt.1 hlong
  | fin32 | fin64 | finfh => exact cursorInv_of_finalizeOnly rfl rfl

theorem issueWord_keeps_cursorInv {w : W64} {s t : State} (hs : CursorInv s) (h : issueWord w s = .next t) :
    CursorInv t := by
  rcases issueWord_cases h with ⟨-, rfl⟩ | ⟨-, c, -, rfl⟩ | ⟨-, i, hstarts, rfl⟩
  · exact hs.of_sameCounts ⟨rfl, rfl, rfl, rfl, rfl, rfl⟩ rfl rfl rfl rfl
  · exact cursorInv_of_ended rfl rfl
  · exact startState_cursorInv hstarts

theorem writeRegister_keeps_cursorInv {s : State} (hs : CursorInv s) (r : Register) (v : W64) :
    CursorInv (writeRegister s r v) := by
  cases r <;> exact hs.of_sameCounts ⟨rfl, rfl, rfl, rfl, rfl, rfl⟩ rfl rfl rfl rfl

/-- Buffers that no longer hold the running command's bytes are recorded as such (R275). -/
theorem declareBuffers_keeps_cursorInv {s : State} (hs : CursorInv s) (bs : List Extent) :
    CursorInv (declareBuffers bs s) :=
  { hs with
    true_buffer := fun hbusy hstrayed => by
      rw [declareBuffers_status] at hbusy
      simpa [hbusy] using (Bool.or_eq_false_iff.1 hstrayed).2 }

/-- Settles O50: the engine's turn moves the cursor phase by phase, an issue sets it, the end of a command and reset
take it away, and no other step touches it. -/
theorem stepKeepsCursorInv : Obligations.StepKeepsCursorInv := by
  intro s t _ hs hstep
  have consumed (rest : List Event) : CursorInv { s with inbox := rest } := { hs with }
  cases step_outcome hstep with
  | turn => exact engineTurn_keeps_cursorInv hs
  | @engine rest => exact engineTurn_keeps_cursorInv (consumed rest)
  | @command _ rest _ _ _ hissue => exact issueWord_keeps_cursorInv (consumed rest) hissue
  | @write _ _ _ rest => exact writeRegister_keeps_cursorInv (consumed rest) _ _
  | @declare _ rest => exact declareBuffers_keeps_cursorInv (consumed rest) _
  | assertReset => exact cursorInv_of_ended rfl rfl
  | read | poke | unmap | releaseReset =>
    exact hs.of_sameCounts ⟨rfl, rfl, rfl, rfl, rfl, rfl⟩ rfl rfl rfl rfl

/-! ### The reset state (10_state.md R58) -/

/-- Settles O46: the reset state is written down, and each piece of it is evaluated. -/
theorem resetState : Obligations.ResetState := by
  refine ⟨?_, ?_, rfl, rfl, rfl, rfl, rfl, rfl⟩
  · decide
  · decide

/-- Settles O48: no command runs at reset and the flags are those of `Status.reset`. -/
theorem invariantsHoldAtReset : Obligations.InvariantsHoldAtReset :=
  ⟨FlagsAgree.reset.statusInv rfl, cursorInv_of_ended rfl rfl, Memory.wf_reset⟩

end Sys2Proof.Machine

/-!
# 20_memory.md: the memory port, the buffer's contract, and the memory itself

Which bytes a step of the engine reads and that it depends on no other, the refusal of a broken contract, what the
engine leaves alone, and what another agent's change of the memory does.
-/

namespace Sys2Proof.Machine

/-! ### Reads that another memory answers alike (R81, R84) -/

/-- The `n` bytes at `a` are answered alike in both states. -/
def AnswersAlike (s t : State) (a : Addr) (n : Nat) : Prop :=
  ∀ i < n, byteAnswer t (a + BitVec.ofNat 64 i) = byteAnswer s (a + BitVec.ofNat 64 i)

theorem AnswersAlike.part {s t : State} {a : Addr} {n : Nat} (h : AnswersAlike s t a n) {i j : Nat}
    (hij : i + j ≤ n) : AnswersAlike s t (a + BitVec.ofNat 64 i) j := by
  intro k hk
  rw [BitVec.add_assoc, ← BitVec.ofNat_add]
  exact h (i + k) (by omega)

theorem AnswersAlike.mono {s t : State} {a : Addr} {n : Nat} (h : AnswersAlike s t a n) {j : Nat} (hj : j ≤ n) :
    AnswersAlike s t a j :=
  fun i hi => h i (by omega)

theorem AnswersAlike.readWord_eq {s t : State} {a : Addr} {n : Nat} (h : AnswersAlike s t a n) {j : Nat} (hj : j ≤ n)
    (w : Nat) : readWord t w a j = readWord s w a j := by
  rw [readWord, readWord, memRead_congr (h.mono hj)]

theorem AnswersAlike.readWord_part_eq {s t : State} {a : Addr} {n : Nat} (h : AnswersAlike s t a n) {i j : Nat}
    (hij : i + j ≤ n) (w : Nat) :
    readWord t w (a + BitVec.ofNat 64 i) j = readWord s w (a + BitVec.ofNat 64 i) j :=
  (h.part hij).readWord_eq le_rfl w

theorem Answer.andThen_congr {α β : Type} {r r' : Answer α} {k k' : α → Answer β} (hr : r = r')
    (hk : ∀ v, r' = .value v → k v = k' v) : r.andThen k = r'.andThen k' := by
  subst hr
  cases r with
  | value v => exact hk v rfl
  | busError | noAnswer => rfl

/-! ### The same machine over another memory (R84) -/

/-- The machine with the memory and the platform's map replaced. -/
def State.over (s : State) (m : Memory) (p : Platform) : State := { s with mem := m, plat := p }

section
variable {s : State} {m : Memory} {p : Platform}

/-- A step that depends on a read goes on alike over a memory that gives the read the same answer. -/
theorem onAnswer_over {α : Type} {r r' : Answer α} {k k' : α → State} (hr : r' = r)
    (hk : ∀ v, k' v = (k v).over m p) : onAnswer (s.over m p) r' k' = (onAnswer s r k).over m p := by
  subst hr
  cases r' with
  | value v => exact hk v
  | busError | noAnswer => rfl

/-- Completion does not look at the memory. -/
theorem deliver_over (v : W64) : deliver v (s.over m p) = (deliver v s).over m p := by
  cases h : s.resultOpen with
  | true => rw [deliver_of_open h, deliver_of_open (s := s.over m p) h]; rfl
  | false => rw [deliver_eq_complete h, deliver_eq_complete (s := s.over m p) h]; rfl

/-! ### Each read of a step is one of the bytes `stepReads` counts -/

theorem m32Folds_over {n : Nat} (h : AnswersAlike s (s.over m p) s.ptr n) {j : Nat} (hj : j ≤ n) (g : W32) :
    m32Folds (s.over m p) j g = m32Folds s j g := by
  induction j generalizing g with
  | zero => rfl
  | succ j ih => exact Answer.andThen_congr (h.readWord_part_eq hj 32) fun v _ => ih (by omega) _

theorem m64Folds_over {n : Nat} (h : AnswersAlike s (s.over m p) s.ptr n) {j : Nat} (hj : j ≤ n) (g : W64) :
    m64Folds (s.over m p) j g = m64Folds s j g := by
  induction j generalizing g with
  | zero => rfl
  | succ j ih => exact Answer.andThen_congr (h.readWord_part_eq hj 64) fun v _ => ih (by omega) _

/-- A bracket reads the `n` bytes at its address if it fires, and nothing if it does not (R182). -/
theorem bracketIf_over {fires : Bool} {n : Nat} {ptr : Addr}
    (h : AnswersAlike s (s.over m p) ptr (if fires then n else 0)) (q acc : W64) :
    bracketIf fires (s.over m p) q n acc ptr = bracketIf fires s q n acc ptr := by
  cases fires with
  | true => exact congrArg (Answer.map _) (h.readWord_eq le_rfl 64)
  | false => rfl

/-- The brackets that fire stand one after the other in the `r` bytes of the tail (R182). -/
theorem brackets_over {r : Nat} (h : AnswersAlike s (s.over m p) s.ptr r) :
    brackets (s.over m p) r = brackets s r := by
  refine Answer.andThen_congr (bracketIf_over ?_ _ _) fun q4 h4 =>
    Answer.andThen_congr (bracketIf_over ?_ _ _) fun q3 h3 =>
    Answer.andThen_congr (bracketIf_over ?_ _ _) fun q2 h2 => congrArg (Answer.map _) (bracketIf_over ?_ _ _)
  · exact h.mono (by grind)
  · rw [bracketIf_ptr h4]
    exact h.part (by grind)
  · rw [bracketIf_ptr h3, bracketIf_ptr h4, BitVec.add_assoc, ← BitVec.ofNat_add]
    exact h.part (by grind)
  · rw [bracketIf_ptr h2, bracketIf_ptr h3, bracketIf_ptr h4]
    simp only [BitVec.add_assoc, ← BitVec.ofNat_add]
    exact h.part (by grind)

/-! ### A step of the engine depends on the bytes `stepReads` counts alone -/

theorem m32Body_over (h : AnswersAlike s (s.over m p) s.ptr (min 4 s.rem.toNat)) :
    m32Body (s.over m p) = (m32Body s).over m p := by
  by_cases hword : 4 ≤ s.rem.toNat
  · rw [m32Body, m32Body, if_pos hword, if_pos (c := 4 ≤ (s.over m p).rem.toNat) hword]
    exact onAnswer_over (h.readWord_eq (le_min le_rfl hword) 32) fun _ => rfl
  · rw [m32Body, m32Body, if_neg hword, if_neg (c := 4 ≤ (s.over m p).rem.toNat) hword]
    exact onAnswer_over (m32Folds_over h (le_min (Nat.le_of_not_le hword) le_rfl) _) fun _ => rfl

theorem m64Body_over (h : AnswersAlike s (s.over m p) s.ptr (min 8 s.rem.toNat)) :
    m64Body (s.over m p) = (m64Body s).over m p := by
  by_cases hword : 8 ≤ s.rem.toNat
  · rw [m64Body, m64Body, if_pos hword, if_pos (c := 8 ≤ (s.over m p).rem.toNat) hword]
    exact onAnswer_over (h.readWord_eq (le_min le_rfl hword) 64) fun _ => rfl
  · rw [m64Body, m64Body, if_neg hword, if_neg (c := 8 ≤ (s.over m p).rem.toNat) hword]
    exact onAnswer_over (m64Folds_over h (le_min (Nat.le_of_not_le hword) le_rfl) _) fun _ => rfl

/-- The count of blocks is odd exactly when its lowest bit is set (R202). -/
theorem getLsbD_zero_iff (n : W64) : n.getLsbD 0 = true ↔ n.toNat % 2 = 1 := by
  simp [BitVec.getLsbD, Nat.testBit_zero]

theorem fhOddStep_over (h : AnswersAlike s (s.over m p) s.ptr (if s.nblk.toNat % 2 = 1 then 16 else 0)) :
    fhOddStep (s.over m p) = (fhOddStep s).over m p := by
  by_cases hodd : s.nblk.getLsbD 0 = true
  · rw [if_pos ((getLsbD_zero_iff _).1 hodd)] at h
    rw [fhOddStep, fhOddStep, if_pos hodd, if_pos (c := (s.over m p).nblk.getLsbD 0 = true) hodd]
    exact onAnswer_over (h.readWord_eq le_rfl 128) fun _ => rfl
  · rw [fhOddStep, fhOddStep, if_neg hodd, if_neg (c := (s.over m p).nblk.getLsbD 0 = true) hodd]
    rfl

theorem fhBulkStep_over (h : AnswersAlike s (s.over m p) s.ptr 128) :
    fhBulkStep (s.over m p) = (fhBulkStep s).over m p := by
  have block (i : Nat) (hi : i + 16 ≤ 128) := h.readWord_part_eq hi 128
  refine onAnswer_over ?_ fun _ => rfl
  exact Answer.andThen_congr (h.readWord_eq (by decide) 128) fun v0 _ =>
    Answer.andThen_congr (block 16 (by decide)) fun v1 _ => Answer.andThen_congr (block 32 (by decide)) fun v2 _ =>
    Answer.andThen_congr (block 48 (by decide)) fun v3 _ => Answer.andThen_congr (block 64 (by decide)) fun v4 _ =>
    Answer.andThen_congr (block 80 (by decide)) fun v5 _ => Answer.andThen_congr (block 96 (by decide)) fun v6 _ =>
    congrArg (Answer.map _) (block 112 (by decide))

theorem fhPairStep_over (h : AnswersAlike s (s.over m p) s.ptr 32) :
    fhPairStep (s.over m p) = (fhPairStep s).over m p := by
  refine onAnswer_over ?_ fun _ => rfl
  exact Answer.andThen_congr (h.readWord_eq (by decide) 128) fun v0 _ =>
    congrArg (Answer.map _) (h.readWord_part_eq (i := 16) le_rfl 128)

theorem fhBlkStep_over
    (h : AnswersAlike s (s.over m p) s.ptr (if 8 ≤ s.nblk.toNat then 128 else if 2 ≤ s.nblk.toNat then 32 else 0)) :
    fhBlkStep (s.over m p) = (fhBlkStep s).over m p := by
  change (if 8 ≤ s.nblk.toNat then fhBulkStep (s.over m p)
    else if 2 ≤ s.nblk.toNat then fhPairStep (s.over m p) else fhCombStep (s.over m p)) = _
  rw [fhBlkStep]
  split_ifs at h ⊢ with hbulk hpair
  · exact fhBulkStep_over h
  · exact fhPairStep_over h
  · rfl

/-- By phase: five read the bytes `stepReads` counts, the others read none. -/
theorem phaseStep_over (h : AnswersAlike s (s.over m p) s.ptr s.stepReads) :
    phaseStep (s.over m p) = (phaseStep s).over m p := by
  unfold State.stepReads at h
  rw [phaseStep, phaseStep, show (s.over m p).phase = s.phase from rfl]
  cases hph : s.phase with
  | idle | fhInit => rfl
  | m32Body => exact m32Body_over (by rwa [hph] at h)
  | m64Body => exact m64Body_over (by rwa [hph] at h)
  | fhOdd => exact fhOddStep_over (by rwa [hph] at h)
  | fhBlk => exact fhBlkStep_over (by rwa [hph] at h)
  | fhTail => exact onAnswer_over (brackets_over (by rwa [hph] at h)) fun _ => rfl
  | m32Fin => exact deliver_over (s := { s with h32 := fin32 s.h32 }) _
  | m64Fin => exact deliver_over (s := { s with h64 := fin64 s.h64 }) _
  | fhFin | fuOnly32 | fuOnly64 | fuOnlyFh => exact deliver_over _

theorem engineTurn_over (h : s.status.busy = true → AnswersAlike s (s.over m p) s.ptr s.stepReads) :
    engineTurn (s.over m p) = (engineTurn s).over m p := by
  change (if s.status.busy && !s.rst then phaseStep (s.over m p) else s.over m p) = _
  rw [engineTurn]
  split_ifs with hruns
  · exact phaseStep_over (h (Bool.and_eq_true_iff.1 hruns).1)
  · rfl

end

/-! ### The bytes of a step lie in the buffer of the running command (R84) -/

/-- A step reads no more than is left to read. -/
theorem stepReads_le_bytesLeft (s : State) : s.stepReads ≤ s.bytesLeft := by
  unfold State.stepReads State.bytesLeft
  cases s.phase with
  | m32Body | m64Body => exact min_le_right _ _
  | fhOdd => dsimp only; split_ifs <;> omega
  | fhBlk => dsimp only; split_ifs <;> omega
  | fhTail => exact le_rfl
  | idle | m32Fin | m64Fin | fhInit | fhFin | fuOnly32 | fuOnly64 | fuOnlyFh => exact Nat.zero_le _

theorem bytesLeft_of_finalizeOnly {s : State} (h : s.phase.finalizeOnly = true) : s.bytesLeft = 0 := by
  unfold State.bytesLeft
  cases hph : s.phase <;> simp [hph, Phase.finalizeOnly] at h ⊢

/-- The bytes left to read are the last bytes of the buffer, from the cursor on (R43, R89). -/
theorem CursorInv.toNat_left {s : State} (hs : CursorInv s) (hbusy : s.status.busy = true) {i : Nat}
    (hi : i < s.bytesLeft) :
    (s.ptr + BitVec.ofNat 64 i).toNat = s.bufBase.toNat + (s.bufLen.toNat - s.bytesLeft) + i := by
  have hphase : s.phase.finalizeOnly = false := by
    rw [Bool.eq_false_iff]
    intro h
    rw [bytesLeft_of_finalizeOnly h] at hi
    exact Nat.not_lt_zero i hi
  have hwrap := hs.no_wrap hbusy
  have hleft := hs.left_le hbusy
  rw [hs.cursor hbusy hphase, BitVec.add_assoc, ← BitVec.ofNat_add, BitVec.toNat_add, BitVec.toNat_ofNat]
  omega

/-- Settles O29: a step depends on the bytes `stepReads` counts alone, these are among the bytes left to read, and those
lie in the buffer. -/
theorem noOverRead : Obligations.NoOverRead := by
  intro s m p hs halike
  refine engineTurn_over fun hbusy i hi => ?_
  have hunread : i < s.bytesLeft := Nat.lt_of_lt_of_le hi (stepReads_le_bytesLeft s)
  have haddr := hs.toNat_left hbusy hunread
  have hleft := hs.left_le hbusy
  exact halike _ (by omega) (by omega)

/-! ### A broken contract (R87, R89) -/

theorem bufferRefusal_of_wrap {s : State} (h : 2 ^ 64 < s.data.toNat + s.len.toNat) :
    bufferRefusal s = some .bufferWraps :=
  if_pos h

theorem bufferRefusal_of_sideEffect {s : State} (hfits : s.data.toNat + s.len.toNat ≤ 2 ^ 64)
    (hmeets : ∃ r ∈ s.sideEffectRanges, r.meets s.data.toNat s.len.toNat = true) :
    bufferRefusal s = some .sideEffectBuffer := by
  rw [bufferRefusal, if_neg (Nat.not_lt.2 hfits), if_pos (List.any_eq_true.2 hmeets)]

theorem acceptBuffer_of_refusal {s : State} {r : Refusal} (h : bufferRefusal s = some r) (init : State → State) :
    acceptBuffer s init = .refused r := by
  rw [acceptBuffer, h]

/-- A hash command that passes the length check is refused for the reason its buffer gives. -/
theorem exec_of_refusal {i : Instr} {s : State} {r : Refusal} (hidle : s.status.busy = false)
    (hreads : readsBuffer i = true) (hlength : rejectsLength i s = false) (h : bufferRefusal s = some r) :
    exec i s = .refused r := by
  rw [← bufferRefusal_status s (statusCleared s.status)] at h
  cases i with
  | mix32 =>
    rw [show exec .mix32 s = execMix32 s from rfl, execMix32, issue_idle hidle, lenTooLong_status,
      show s.lenTooLong = false from hlength]
    exact acceptBuffer_of_refusal h _
  | mix64a =>
    rw [show exec .mix64a s = execMix64a s from rfl, execMix64a, issue_idle hidle, lenTooLong_status,
      show s.lenTooLong = false from hlength]
    exact acceptBuffer_of_refusal h _
  | fh64 =>
    rw [show exec .fh64 s = execFh64 s from rfl, execFh64, issue_idle hidle]
    exact acceptBuffer_of_refusal h _
  | fin32 | fin64 | finfh => cases hreads

theorem lenTooLong_of_lt {s : State} (h : s.len.toNat < 2 ^ 31) : s.lenTooLong = false := by
  rw [Bool.eq_false_iff, ne_eq, lenTooLong_iff]
  omega

/-- Settles O13: the reason is the buffer's, and each hash command with a length it allows is refused for it. -/
theorem brokenContractIsRefused : Obligations.BrokenContractIsRefused := by
  intro s hidle
  have refused {r : Refusal} (h : bufferRefusal s = some r) : exec .fh64 s = .refused r ∧
      (s.len.toNat < 2 ^ 31 → exec .mix32 s = .refused r ∧ exec .mix64a s = .refused r) :=
    ⟨exec_of_refusal hidle rfl rfl h, fun hlen =>
      ⟨exec_of_refusal hidle rfl (lenTooLong_of_lt hlen) h, exec_of_refusal hidle rfl (lenTooLong_of_lt hlen) h⟩⟩
  exact ⟨fun hwrap => refused (bufferRefusal_of_wrap hwrap),
    fun hfits hmeets => refused (bufferRefusal_of_sideEffect hfits hmeets)⟩

/-! ### What the engine leaves alone (R88, 10_state.md R30, R56) -/

/-- In `IDLE` the engine has no step (R56). -/
theorem engineTurn_of_idlePhase {s : State} (h : s.phase = .idle) : engineTurn s = s := by
  rw [engineTurn, phaseStep, h]
  split <;> rfl

@[simp] theorem engineTurn_data (s : State) : (engineTurn s).data = s.data :=
  engineTurn_field State.data s rfl (fun _ _ _ => deliver_data _ _) (fun _ _ _ _ _ _ _ _ _ _ _ => rfl)

@[simp] theorem engineTurn_len (s : State) : (engineTurn s).len = s.len :=
  engineTurn_field State.len s rfl (fun _ _ _ => deliver_len _ _) (fun _ _ _ _ _ _ _ _ _ _ _ => rfl)

@[simp] theorem engineTurn_seed (s : State) : (engineTurn s).seed = s.seed :=
  engineTurn_field State.seed s rfl (fun _ _ _ => deliver_seed _ _) (fun _ _ _ _ _ _ _ _ _ _ _ => rfl)

@[simp] theorem engineTurn_ie (s : State) : (engineTurn s).ie = s.ie :=
  engineTurn_field State.ie s rfl (fun _ _ _ => deliver_ie _ _) (fun _ _ _ _ _ _ _ _ _ _ _ => rfl)

@[simp] theorem engineTurn_rst (s : State) : (engineTurn s).rst = s.rst :=
  engineTurn_field State.rst s rfl (fun _ _ _ => deliver_rst _ _) (fun _ _ _ _ _ _ _ _ _ _ _ => rfl)

@[simp] theorem engineTurn_rdata (s : State) : (engineTurn s).rdata = s.rdata :=
  engineTurn_field State.rdata s rfl (fun _ _ _ => deliver_rdata _ _) (fun _ _ _ _ _ _ _ _ _ _ _ => rfl)

@[simp] theorem engineTurn_bufBase (s : State) : (engineTurn s).bufBase = s.bufBase :=
  engineTurn_field State.bufBase s rfl (fun _ _ _ => deliver_bufBase _ _) (fun _ _ _ _ _ _ _ _ _ _ _ => rfl)

@[simp] theorem engineTurn_bufLen (s : State) : (engineTurn s).bufLen = s.bufLen :=
  engineTurn_field State.bufLen s rfl (fun _ _ _ => deliver_bufLen _ _) (fun _ _ _ _ _ _ _ _ _ _ _ => rfl)

@[simp] theorem engineTurn_raced (s : State) : (engineTurn s).raced = s.raced :=
  engineTurn_field State.raced s rfl (fun _ _ _ => deliver_raced _ _) (fun _ _ _ _ _ _ _ _ _ _ _ => rfl)

@[simp] theorem engineTurn_strayed (s : State) : (engineTurn s).strayed = s.strayed :=
  engineTurn_field State.strayed s rfl (fun _ _ _ => deliver_strayed _ _) (fun _ _ _ _ _ _ _ _ _ _ _ => rfl)

/-- Of the flags, `OVR` is the host's and the issue's alone (R274). -/
@[simp] theorem engineTurn_ovr (s : State) : (engineTurn s).status.ovr = s.status.ovr :=
  engineTurn_field (fun t => t.status.ovr) s rfl (fun _ _ _ => by rw [deliver_status]; rfl)
    (fun _ _ _ _ _ _ _ _ _ _ _ => rfl)

/-- Settles O25: no phase's step touches any of these fields, and the answers are those of the same memory and map. -/
theorem engineFrame : Obligations.EngineFrame := by
  intro s
  refine ⟨⟨engineTurn_data s, engineTurn_len s, engineTurn_seed s, engineTurn_ie s, engineTurn_ovr s,
    engineTurn_rst s, engineTurn_cfg s, engineTurn_plat s, engineTurn_inbox s, engineTurn_rdata s,
    engineTurn_bufBase s, engineTurn_bufLen s, engineTurn_raced s, engineTurn_strayed s, engineTurn_buffers s,
    engineTurn_mem s, byteAnswer_congr (engineTurn_mem s) (engineTurn_plat s)⟩, ?_⟩
  rintro (hidle | hphase | hrst)
  · exact engineTurn_of_idle hidle
  · exact engineTurn_of_idlePhase hphase
  · exact engineTurn_of_reset hrst

/-! ### The canonical form of the memory (R80) -/

/-- Settles O51: a step leaves the memory as it is, writes a byte, or makes an address unreadable. -/
theorem stepKeepsMemoryWf : Obligations.StepKeepsMemoryWf := by
  intro s t hwf hstep
  rcases (step_outcome hstep).mem_cases with hmem | ⟨p, v, -, -, hmem⟩ | ⟨p, -, -, hmem⟩
  · exact hmem ▸ hwf
  · exact hmem ▸ Memory.wf_store hwf p v
  · exact hmem ▸ Memory.wf_erase hwf p.toNat

/-! ### The buffer changed under the command (R93, 93_implementation_defined.md U4) -/

theorem inBuffer_iff {s : State} {a : Nat} :
    s.inBuffer a = true ↔
      s.status.busy = true ∧ s.bufBase.toNat ≤ a ∧ a < s.bufBase.toNat + s.bufLen.toNat := by
  simp [State.inBuffer, and_assoc]

/-- A race is recorded once and for all, and else exactly at a change of a byte of the buffer. -/
theorem raced_or_changed_iff {s : State} {a : Nat} {after : Option Byte} :
    (s.raced || (s.inBuffer a && s.mem.lookup a != after)) = true ↔
      s.raced = true ∨ (s.status.busy = true ∧ s.bufBase.toNat ≤ a ∧ a < s.bufBase.toNat + s.bufLen.toNat ∧
        s.mem.lookup a ≠ after) := by
  rw [Bool.or_eq_true, Bool.and_eq_true, inBuffer_iff, bne_iff_ne]
  tauto

/-- A command that completes with the contract on its bytes broken delivers a value of which nothing is known. -/
theorem deliver_of_resultOpen {s : State} (h : s.resultOpen = true) (v : W64) :
    (deliver v s).result = Config.freeValue 64 s.free ∧
      (deliver v s).status = { s.status with done := true, busy := false } ∧ (deliver v s).phase = .idle :=
  ⟨by rw [deliver_of_open h]; rfl, deliver_status v s, deliver_phase v s⟩

/-- The finishing phase of each hash command delivers, and writes at most its own accumulator (R144, R164, R186). -/
theorem phaseStep_of_finishing {s : State} (hphase : s.phase = .m32Fin ∨ s.phase = .m64Fin ∨ s.phase = .fhFin) :
    ∃ v g h, phaseStep s = deliver v { s with h32 := g, h64 := h } := by
  unfold phaseStep
  rcases hphase with hph | hph | hph
  · exact ⟨_, fin32 s.h32, s.h64, by rw [hph]; rfl⟩
  · exact ⟨_, s.h32, fin64 s.h64, by rw [hph]; rfl⟩
  · exact ⟨_, s.h32, s.h64, by rw [hph]; rfl⟩

theorem engineTurn_of_finishing {s : State} (hbusy : s.status.busy = true) (hrst : s.rst = false)
    (hopen : s.resultOpen = true) (hphase : s.phase = .m32Fin ∨ s.phase = .m64Fin ∨ s.phase = .fhFin) :
    (engineTurn s).result = Config.freeValue 64 s.free ∧
      (engineTurn s).status = { s.status with done := true, busy := false } ∧ (engineTurn s).phase = .idle := by
  obtain ⟨v, g, h, hdeliver⟩ := phaseStep_of_finishing hphase
  rw [engineTurn_of_busy hbusy hrst, hdeliver]
  exact deliver_of_resultOpen (s := { s with h32 := g, h64 := h }) hopen v

/-- Settles O57: the two events are `pokeByte` and `unmapByte`, and a raced command that finishes delivers a free
value. -/
theorem changedBufferIsARace : Obligations.ChangedBufferIsARace := by
  refine ⟨fun s a v rest h => ?_, fun s a rest h => ?_, fun s hbusy hrst hraced hphase => ?_⟩
  · refine ⟨s.mem.store a.toNat v, _, step_of_event h, Memory.lookup_store_same _ _ _, fun b hb => ?_,
      raced_or_changed_iff⟩
    exact Memory.lookup_store_other _ _ _ _ (BitVec.toNat_ne_iff_ne.2 hb)
  · refine ⟨s.mem.erase a.toNat, _, step_of_event h, fun hwf => Memory.lookup_erase_same hwf _, fun b hb => ?_,
      raced_or_changed_iff⟩
    exact Memory.lookup_erase_other _ _ _ (BitVec.toNat_ne_iff_ne.2 hb)
  · exact engineTurn_of_finishing hbusy hrst (by rw [State.resultOpen, hraced, Bool.true_or]) hphase

end Sys2Proof.Machine

/-!
# 30_encoding.md: the command word

The fields of a word as digits of its number, the decoder on the fields, and what a word that names no command does.
-/

namespace Sys2Proof

/-! ### The fields of a word (30_encoding.md R110) -/

theorem toNat_fieldsOf (w : W64) :
    (fieldsOf w).alg.toNat = w.toNat % 4 ∧ (fieldsOf w).rsv2.toNat = w.toNat / 4 % 2 ∧
      (fieldsOf w).fo.toNat = w.toNat / 8 % 2 ∧ (fieldsOf w).rsvHi.toNat = w.toNat / 16 := by
  have hw := w.isLt
  simp only [fieldsOf, BitVec.extractLsb'_toNat, Nat.shiftRight_eq_div_pow, Nat.reducePow, Nat.div_one, true_and]
  omega

theorem toNat_append_eq_add {m n : Nat} (x : BitVec m) (y : BitVec n) :
    (x ++ y).toNat = x.toNat * 2 ^ n + y.toNat := by
  rw [BitVec.toNat_append, ← Nat.shiftLeft_add_eq_or_of_lt y.isLt, Nat.shiftLeft_eq]

theorem toNat_wordOf (f : CommandFields) :
    (wordOf f).toNat = ((f.rsvHi.toNat * 2 + f.fo.toNat) * 2 + f.rsv2.toNat) * 4 + f.alg.toNat := by
  simp only [wordOf, toNat_append_eq_add]
  rfl

/-- No bit of a word is dropped. -/
@[simp] theorem wordOf_fieldsOf (w : W64) : wordOf (fieldsOf w) = w := by
  obtain ⟨halg, hrsv2, hfo, hhi⟩ := toNat_fieldsOf w
  apply BitVec.eq_of_toNat_eq
  rw [toNat_wordOf, halg, hrsv2, hfo, hhi]
  omega

@[simp] theorem fieldsOf_wordOf (f : CommandFields) : fieldsOf (wordOf f) = f := by
  obtain ⟨halg, hrsv2, hfo, hhi⟩ := toNat_fieldsOf (wordOf f)
  rw [toNat_wordOf] at halg hrsv2 hfo hhi
  have balg := f.alg.isLt
  have brsv2 := f.rsv2.isLt
  have bfo := f.fo.isLt
  cases hf : fieldsOf (wordOf f)
  cases f
  simp only [hf, CommandFields.mk.injEq, BitVec.toNat_eq] at *
  omega

/-- Settles O3: the fields are digits of the word's number, and the digits determine it. -/
theorem fieldsCoverTheWord : Obligations.FieldsCoverTheWord :=
  ⟨wordOf_fieldsOf, fieldsOf_wordOf, toNat_fieldsOf⟩

/-! ### The decoder on the fields (30_encoding.md R111, R112) -/

theorem Laws.fieldsAgree (i : Instr) : Laws.FieldsAgree.Statement i := by
  cases i with
  | mix32 => exact Laws.FieldsAgree.mix32
  | mix64a => exact Laws.FieldsAgree.mix64a
  | fh64 => exact Laws.FieldsAgree.fh64
  | fin32 => exact Laws.FieldsAgree.fin32
  | fin64 => exact Laws.FieldsAgree.fin64
  | finfh => exact Laws.FieldsAgree.finfh

/-- `FO` and `ALG` select a command exactly when they are the command's own. -/
theorem select_eq_some_iff {fo : BitVec 1} {alg : BitVec 2} {i : Instr} :
    select fo alg = some i ↔ fo = i.fields.fo ∧ alg = i.fields.alg := by
  revert fo alg
  cases i <;> decide

/-- Only `ALG = 00` selects nothing. -/
theorem select_eq_none_iff {fo : BitVec 1} {alg : BitVec 2} : select fo alg = none ↔ alg = 0 := by
  revert fo alg
  decide

/-- All the decoder can answer: the first of R112's tests that the fields fail, or the command whose fields they are. -/
inductive DecodeOutcome (w : W64) : Prop where
  | reservedHighBits (hhi : (fieldsOf w).rsvHi ≠ 0) (hdecode : decode w = .error .reservedHighBits)
  | reservedBit2 (hhi : (fieldsOf w).rsvHi = 0) (hrsv2 : (fieldsOf w).rsv2 ≠ 0)
      (hdecode : decode w = .error .reservedBit2)
  | noAlgorithm (hhi : (fieldsOf w).rsvHi = 0) (hrsv2 : (fieldsOf w).rsv2 = 0) (halg : (fieldsOf w).alg = 0)
      (hdecode : decode w = .error .noAlgorithm)
  | command (i : Instr) (hfields : fieldsOf w = i.fields) (hdecode : decode w = .ok i)

theorem Instr.fields_reserved (i : Instr) : i.fields.rsvHi = 0 ∧ i.fields.rsv2 = 0 ∧ i.fields.alg ≠ 0 := by
  cases i <;> decide

theorem decode_outcome (w : W64) : DecodeOutcome w := by
  by_cases hhi : (fieldsOf w).rsvHi = 0
  case neg => exact .reservedHighBits hhi (if_pos (by simpa [CommandFields.highClear] using hhi))
  have hhigh : ¬(fieldsOf w).highClear = false := by simp [CommandFields.highClear, hhi]
  by_cases hrsv2 : (fieldsOf w).rsv2 = 0
  case neg =>
    exact .reservedBit2 hhi hrsv2 ((if_neg hhigh).trans (if_pos (by simpa [CommandFields.bit2Clear] using hrsv2)))
  have hbit2 : ¬(fieldsOf w).bit2Clear = false := by simp [CommandFields.bit2Clear, hrsv2]
  cases hselect : select (fieldsOf w).fo (fieldsOf w).alg with
  | none => exact .noAlgorithm hhi hrsv2 (select_eq_none_iff.1 hselect) (by simp [decode, hhigh, hbit2, hselect])
  | some i =>
    obtain ⟨hfo, halg⟩ := select_eq_some_iff.1 hselect
    obtain ⟨ihi, irsv2, -⟩ := i.fields_reserved
    refine .command i ?_ (by simp [decode, hhigh, hbit2, hselect])
    calc fieldsOf w = ⟨(fieldsOf w).alg, (fieldsOf w).rsv2, (fieldsOf w).fo, (fieldsOf w).rsvHi⟩ := rfl
      _ = ⟨i.fields.alg, i.fields.rsv2, i.fields.fo, i.fields.rsvHi⟩ := by rw [halg, hrsv2, irsv2, hfo, hhi, ihi]
      _ = i.fields := rfl

@[simp] theorem decode_encode (i : Instr) : decode (encode i) = .ok i := by
  cases i <;> decide

/-- The word of a command is the only one that decodes to it: its fields are the command's, and they determine it. -/
theorem decode_eq_ok_iff {w : W64} {i : Instr} : decode w = .ok i ↔ w = encode i := by
  refine ⟨fun h => ?_, fun h => h ▸ decode_encode i⟩
  cases decode_outcome w with
  | reservedHighBits _ hdecode | reservedBit2 _ _ hdecode | noAlgorithm _ _ _ hdecode => cases hdecode.symm.trans h
  | command j hfields hdecode =>
    cases hdecode.symm.trans h
    rw [← wordOf_fieldsOf w, hfields, (Laws.fieldsAgree i).2.1]

/-- Settles O1: a word that decodes to a command has the command's fields, which no other word has. -/
theorem decodeAndEncodeAgree : Obligations.DecodeAndEncodeAgree :=
  ⟨fun i => ⟨(Laws.fieldsAgree i).2.2, fun _ => decode_eq_ok_iff⟩, rfl, rfl, rfl, rfl, rfl, rfl⟩

theorem rsv2_eq_zero_iff (w : W64) : (fieldsOf w).rsv2 = 0 ↔ w.getLsbD 2 = false := by
  obtain ⟨-, hrsv2, -⟩ := toNat_fieldsOf w
  rw [BitVec.toNat_eq, hrsv2, BitVec.getLsbD, Nat.testBit_eq_decide_div_mod_eq, decide_eq_false_iff_not]
  simp

/-- Settles O2: by the decoder's four answers; a command's word passes all three tests. -/
theorem illegalWordsByTheirBits : Obligations.IllegalWordsByTheirBits := by
  intro w
  change (_ ↔ (fieldsOf w).rsvHi ≠ 0) ∧ (_ ↔ (fieldsOf w).rsvHi = 0 ∧ _) ∧
    (_ ↔ (fieldsOf w).rsvHi = 0 ∧ _ ∧ (fieldsOf w).alg = 0)
  rw [← Bool.not_eq_false, ← rsv2_eq_zero_iff]
  cases decode_outcome w with
  | reservedHighBits hhi hdecode | reservedBit2 hhi hrsv2 hdecode | noAlgorithm hhi hrsv2 halg hdecode =>
    simp only [hdecode, Except.error.injEq, reduceCtorEq, true_iff, false_iff]
    tauto
  | command i hfields hdecode =>
    obtain ⟨hhi, hrsv2, halg⟩ := i.fields_reserved
    simp only [hdecode, hfields, reduceCtorEq, false_iff]
    tauto

theorem decodeTableWord_encode (i : Instr) : decodeTableWord 64 (encode i).toNat = some i := by
  have hword : BitVec.ofNat 64 ((encode i).toNat % 2 ^ 64) = encode i := by
    rw [Nat.mod_eq_of_lt (encode i).isLt, BitVec.ofNat_toNat, BitVec.setWidth_eq]
  rw [decodeTableWord, hword, decode_encode]

/-- Settles O4: each word of the table is the word of its command. -/
theorem tableWordsDecode : Obligations.TableWordsDecode :=
  ⟨decodeTableWord_encode .mix32, decodeTableWord_encode .mix64a, decodeTableWord_encode .fh64,
    decodeTableWord_encode .fin32, decodeTableWord_encode .fin64, decodeTableWord_encode .finfh⟩

end Sys2Proof

namespace Sys2Proof.Machine

/-! ### A word that names no command (30_encoding.md R114, 60_exceptions.md R271) -/

theorem issueWord_of_illegal {s : State} {w : W64} (hidle : s.status.busy = false) (hillegal : ∀ i, w ≠ encode i) :
    issueWord w s = .next (raiseError .illegalCommand (clearedForIssue s)) := by
  cases hdecode : decode w with
  | ok i => exact absurd (decode_eq_ok_iff.1 hdecode) (hillegal i)
  | error r => simp [issueWord, hidle, hdecode, issue_idle hidle, clearedForIssue]

/-- Settles O7: the word decodes to no command, and error entry at an idle engine moves nothing but `STATUS`. -/
theorem illegalWordIsReported : Obligations.IllegalWordIsReported := by
  intro s w rest hinbox hrst hidle hphase hillegal
  rw [step_hostWrite hrst (by decide) hinbox]
  refine (issueWord_of_illegal (s := { s with inbox := rest }) hidle hillegal).trans ?_
  simp [raiseError, clearedForIssue, hphase, Status.failed]

end Sys2Proof.Machine

/-!
# 30_encoding.md: the issue of a command, and what the hash commands deliver

The issue step of an idle engine as an equation for each outcome. The engine's steps of each hash command compute its
function of the buffer (40_mix32.md R140, 41_mix64a.md R160, 42_fasthash64_scalar.md R180, 43_fasthash64_block.md R200),
whatever the OPEN parameters are.
-/

namespace Sys2Proof.Machine

/-! ### The two ways an idle engine takes a command (30_encoding.md R112) -/

/-- A length that the command rejects ends it in its issue step (R272). -/
theorem exec_of_rejected {i : Instr} {s : State} (hidle : s.status.busy = false) (h : rejectsLength i s = true) :
    exec i s = .next (raiseError .badLength (clearedForIssue s)) := by
  cases i with
  | mix32 =>
    rw [show exec .mix32 s = execMix32 s from rfl, execMix32, issue_idle hidle, lenTooLong_status]
    exact if_pos h
  | mix64a =>
    rw [show exec .mix64a s = execMix64a s from rfl, execMix64a, issue_idle hidle, lenTooLong_status]
    exact if_pos h
  | fh64 | fin32 | fin64 | finfh => cases h

/-- A command that passes its checks starts. -/
theorem exec_of_starts {i : Instr} {s : State} (hidle : s.status.busy = false) (h : Starts i s) :
    exec i s = .next (startState i (clearedForIssue s)) := by
  have accepted (hreads : readsBuffer i = true) (init : State → State) :
      acceptBuffer (clearedForIssue s) init = .next (init (acceptedBuffer (clearedForIssue s))) :=
    acceptBuffer_of_contract (s := clearedForIssue s) (h.contract hreads) init
  cases i with
  | mix32 =>
    rw [show exec .mix32 s = execMix32 s from rfl, execMix32, issue_idle hidle, lenTooLong_status]
    exact (if_neg (Bool.eq_false_iff.1 h.length)).trans (accepted rfl _)
  | mix64a =>
    rw [show exec .mix64a s = execMix64a s from rfl, execMix64a, issue_idle hidle, lenTooLong_status]
    exact (if_neg (Bool.eq_false_iff.1 h.length)).trans (accepted rfl _)
  | fh64 =>
    rw [show exec .fh64 s = execFh64 s from rfl, execFh64, issue_idle hidle]
    exact accepted rfl _
  | fin32 => exact issue_idle hidle fun s => .next { accept s with h32 := s.seed32, phase := .fuOnly32 }
  | fin64 => exact issue_idle hidle fun s => .next { accept s with h64 := s.seed, phase := .fuOnly64 }
  | finfh => exact issue_idle hidle fun s => .next { accept s with a := s.seed, b := s.len, phase := .fuOnlyFh }

/-- The caller's contract, as the statements put it, is what the issue step checks (R87, R89). -/
theorem keepsContract_iff {s : State} : s.keepsContract ↔ bufferRefusal s = none := by
  rw [bufferRefusal_eq_none, List.any_eq_false]
  simp [State.keepsContract]

/-! ### Delivery (10_state.md R57) -/

/-- `k` turns of the engine complete the running command with the value `v`. -/
structure DeliversIn (k : Nat) (s : State) (v : W64) : Prop where
  result : (engineRun k s).result = v
  status : (engineRun k s).status = statusCompleted s.status
  phase : (engineRun k s).phase = .idle

theorem DeliversIn.of_turn {k : Nat} {v : W64} {s t : State} (hturn : engineTurn s = t) (hstatus : t.status = s.status)
    (h : DeliversIn k t v) : DeliversIn (k + 1) s v := by
  subst hturn
  exact ⟨h.result, hstatus ▸ h.status, h.phase⟩

/-- The engine is in the middle of hashing the buffer `bytes` at `base`, with its first `off` bytes behind it, and the
caller keeps the contract on the bytes. -/
structure Hashing (base : Addr) (bytes : List Byte) (off : Nat) (s : State) : Prop where
  busy : s.status.busy = true
  rst : s.rst = false
  closed : s.resultOpen = false
  buffer : memRead s base bytes.length = .value bytes
  ptr : s.ptr = base + BitVec.ofNat 64 off

/-- What a step of a hash command that neither completes nor fails leaves alone, besides the operands (R84, R88). -/
structure SameSurroundings (s t : State) : Prop where
  status : t.status = s.status
  rst : t.rst = s.rst
  raced : t.raced = s.raced
  strayed : t.strayed = s.strayed
  mem : t.mem = s.mem
  plat : t.plat = s.plat

section
variable {base : Addr} {bytes : List Byte} {off : Nat} {s t : State}

theorem Hashing.engineTurn_eq (h : Hashing base bytes off s) : engineTurn s = phaseStep s :=
  engineTurn_of_busy h.busy h.rst

/-- A step that moves the cursor over `k` bytes and leaves the surroundings alone goes on hashing. -/
theorem Hashing.advance (h : Hashing base bytes off s) (k : Nat) (hptr : t.ptr = s.ptr + BitVec.ofNat 64 k)
    (hst : SameSurroundings s t) : Hashing base bytes (off + k) t where
  busy := hst.status ▸ h.busy
  rst := hst.rst.trans h.rst
  closed := by
    rw [State.resultOpen, hst.raced, hst.strayed]
    exact h.closed
  buffer := by
    rw [memRead_congr fun i _ => byteAnswer_congr hst.mem hst.plat _]
    exact h.buffer
  ptr := by rw [hptr, h.ptr, BitVec.ofNat_add, BitVec.add_assoc]

/-- A step that leaves the cursor and the surroundings alone goes on hashing. -/
theorem Hashing.stay (h : Hashing base bytes off s) (hptr : t.ptr = s.ptr) (hst : SameSurroundings s t) :
    Hashing base bytes off t :=
  h.advance 0 (by simp [hptr]) hst

/-- A read `i` bytes ahead of the cursor is a part of the buffer (R10, R82). -/
theorem Hashing.readWord_ahead (h : Hashing base bytes off s) (w i n : Nat) (hi : off + i + n ≤ bytes.length) :
    readWord s w (s.ptr + BitVec.ofNat 64 i) n = .value (leAt w bytes n (off + i)) := by
  rw [h.ptr, BitVec.add_assoc, ← BitVec.ofNat_add]
  exact readWord_part h.buffer w (off + i) n hi

theorem Hashing.readWord_here (h : Hashing base bytes off s) (w n : Nat) (hi : off + n ≤ bytes.length) :
    readWord s w s.ptr n = .value (leAt w bytes n off) := by
  simpa using h.readWord_ahead w 0 n hi

/-- The completing step delivers its value, the contract being kept. -/
theorem Hashing.deliversIn_one (h : Hashing base bytes off s) {v : W64} (hstep : phaseStep s = deliver v t)
    (hst : SameSurroundings s t) : DeliversIn 1 s v := by
  have hclosed : t.resultOpen = false := by
    rw [State.resultOpen, hst.raced, hst.strayed]
    exact h.closed
  have hturn : engineRun 1 s = complete v t := by
    rw [engineRun_succ, engineRun_zero, h.engineTurn_eq, hstep, deliver_eq_complete hclosed]
  constructor <;> simp [hturn, hst.status]

theorem phaseStep_m32Body (h : s.phase = .m32Body) : phaseStep s = m32Body s := by rw [phaseStep, h]
theorem phaseStep_m32Fin (h : s.phase = .m32Fin) : phaseStep s = m32Fin s := by rw [phaseStep, h]
theorem phaseStep_m64Body (h : s.phase = .m64Body) : phaseStep s = m64Body s := by rw [phaseStep, h]
theorem phaseStep_m64Fin (h : s.phase = .m64Fin) : phaseStep s = m64Fin s := by rw [phaseStep, h]
theorem phaseStep_fhInit (h : s.phase = .fhInit) : phaseStep s = fhInitStep s := by rw [phaseStep, h]
theorem phaseStep_fhOdd (h : s.phase = .fhOdd) : phaseStep s = fhOddStep s := by rw [phaseStep, h]
theorem phaseStep_fhBlk (h : s.phase = .fhBlk) : phaseStep s = fhBlkStep s := by rw [phaseStep, h]
theorem phaseStep_fhTail (h : s.phase = .fhTail) : phaseStep s = fhTailStep s := by rw [phaseStep, h]
theorem phaseStep_fhFin (h : s.phase = .fhFin) : phaseStep s = fhFinStep s := by rw [phaseStep, h]

/-! ### `MIX32` (40_mix32.md R140 to R145) -/

theorem mix32Words_succ (bytes : List Byte) (k : Nat) (h : W32) :
    mix32Words bytes (k + 1) h = mxs32 (mix32Words bytes k h + leAt 32 bytes 4 (4 * k)) 16 := by
  simp [mix32Words, List.range_succ]

theorem m32Fin_delivers (h : Hashing base bytes off s) (hphase : s.phase = .m32Fin) :
    DeliversIn 1 s ((fin32 s.h32).setWidth 64) :=
  h.deliversIn_one (t := { s with h32 := fin32 s.h32 }) (by rw [phaseStep_m32Fin hphase, m32Fin])
    ⟨rfl, rfl, rfl, rfl, rfl, rfl⟩

/-- The folds of the tail are the steps of R140, for each of the lengths 0 to 3. -/
theorem m32Folds_eq (h : Hashing base bytes off s) {j : Nat} (hj : j < 4) (hoff : off + j ≤ bytes.length) (g : W32) :
    ∃ g', m32Folds s j g = .value g' ∧ (if j = 0 then g' else mxs32 g' 16) = mix32Tail bytes j off g := by
  have hbyte (i : Nat) (hi : i < j) :
      readWord s 32 (s.ptr + BitVec.ofNat 64 i) 1 = .value (leAt 32 bytes 1 (off + i)) :=
    h.readWord_ahead 32 i 1 (by omega)
  have hfirst (hi : 0 < j) : readWord s 32 s.ptr 1 = .value (leAt 32 bytes 1 off) := h.readWord_here 32 1 (by omega)
  match j, hj with
  | 0, _ => simp [m32Folds, mix32Tail]
  | 1, _ => simp [m32Folds, mix32Tail, hfirst]
  | 2, _ => simp [m32Folds, mix32Tail, hfirst, hbyte]
  | 3, _ => simp [m32Folds, mix32Tail, hfirst, hbyte]

theorem m32Tail_delivers (h : Hashing base bytes off s) (hphase : s.phase = .m32Body) (hrem : s.rem.toNat < 4)
    (hoff : off + s.rem.toNat ≤ bytes.length) :
    DeliversIn 2 s ((fin32 (mix32Tail bytes s.rem.toNat off s.h32)).setWidth 64) := by
  obtain ⟨g, hfolds, htail⟩ := m32Folds_eq h hrem hoff s.h32
  have hmul : (if s.rem = 0 then g else mxs32 g 16) = mix32Tail bytes s.rem.toNat off s.h32 :=
    (if_congr BitVec.toNat_eq rfl rfl).trans htail
  have hturn : engineTurn s = { s with
      h32 := mix32Tail bytes s.rem.toNat off s.h32, ptr := s.ptr + s.rem, rem := 0, phase := .m32Fin } := by
    rw [h.engineTurn_eq, phaseStep_m32Body hphase, m32Body, if_neg (Nat.not_le.2 hrem), m32Tail, hfolds,
      onAnswer_value, hmul]
  refine .of_turn hturn rfl ?_
  exact m32Fin_delivers (h.advance s.rem.toNat (by simp) ⟨rfl, rfl, rfl, rfl, rfl, rfl⟩) rfl

/-- From `j` words on: the words still to read, and the tail. -/
theorem m32Body_delivers {j k : Nat} {g : W32} (h : Hashing base bytes (4 * j) s) (hphase : s.phase = .m32Body)
    (hrem : 4 * j + s.rem.toNat = bytes.length) (hk : s.rem.toNat / 4 = k) (hwords : s.h32 = mix32Words bytes j g) :
    DeliversIn (k + 2) s
      ((fin32 (mix32Tail bytes (s.rem.toNat % 4) (4 * (j + k)) (mix32Words bytes (j + k) g))).setWidth 64) := by
  induction k generalizing j s with
  | zero =>
    rw [Nat.zero_add, Nat.add_zero j, ← hwords, Nat.mod_eq_of_lt (by omega)]
    exact m32Tail_delivers h hphase (by omega) (by omega)
  | succ k ih =>
    have hturn : engineTurn s = { s with
        h32 := mxs32 (s.h32 + leAt 32 bytes 4 (4 * j)) 16, ptr := s.ptr + 4, rem := s.rem - 4 } := by
      rw [h.engineTurn_eq, phaseStep_m32Body hphase, m32Body, if_pos (by omega), m32Word,
        h.readWord_here 32 4 (by omega), onAnswer_value]
    have hleft : (s.rem - 4).toNat = s.rem.toNat - 4 := by bv_omega
    have hmod : s.rem.toNat % 4 = (s.rem - 4).toNat % 4 := by omega
    rw [hmod, show j + (k + 1) = j + 1 + k by omega]
    refine .of_turn hturn rfl (ih (j := j + 1) ?_ ?_ ?_ ?_ ?_)
    · exact h.advance 4 rfl ⟨rfl, rfl, rfl, rfl, rfl, rfl⟩
    · exact hphase
    · change 4 * (j + 1) + (s.rem - 4).toNat = _
      omega
    · change (s.rem - 4).toNat / 4 = _
      omega
    · rw [mix32Words_succ, ← hwords]

/-! ### Little-endian values of joined bytes (00_scope.md R10) -/

theorem leNat_append (xs ys : List Byte) : leNat (xs ++ ys) = 2 ^ (8 * xs.length) * leNat ys + leNat xs := by
  induction xs with
  | nil => simp [leNat]
  | cons v vs ih =>
    simp only [List.cons_append, leNat, ih, List.length_cons]
    ring

/-- Joined bytes do not overlap: their value is the exclusive or of the values, each at its place. -/
theorem leValue_append (w : Nat) (xs ys : List Byte) :
    leValue w (xs ++ ys) = leValue w xs ^^^ (leValue w ys <<< (8 * xs.length)) := by
  have hxs : leNat xs < 2 ^ (8 * xs.length) := by
    rw [Nat.pow_mul]
    exact leNat_lt xs
  apply BitVec.eq_of_getLsbD_eq
  intro i hi
  simp only [leValue, leNat_append, BitVec.getLsbD_xor, BitVec.getLsbD_shiftLeft, BitVec.getLsbD_ofNat, hi, decide_true,
    Bool.true_and, Nat.testBit_two_pow_mul_add _ hxs]
  split
  case isTrue hlow => simp [hlow]
  case isFalse hhigh =>
    have hzero : (leNat xs).testBit i = false :=
      Nat.testBit_lt_two_pow (hxs.trans_le (Nat.pow_le_pow_right (by decide) (Nat.le_of_not_lt hhigh)))
    simp [hzero, hhigh, show i - 8 * xs.length < w by omega]

theorem leAt_succ (w : Nat) {j : Nat} (hj : off + j ≤ bytes.length) :
    leAt w bytes (j + 1) off = leAt w bytes j off ^^^ (leAt w bytes 1 (off + j) <<< (8 * j)) := by
  have hlen : ((bytes.drop off).take j).length = j := by simp; omega
  simp only [leAt, List.take_add, leValue_append, hlen, List.drop_drop]

/-! ### `MIX64A` (41_mix64a.md R160 to R165) -/

theorem mix64Words_succ (bytes : List Byte) (k : Nat) (h : W64) :
    mix64Words bytes (k + 1) h = (mix64Words bytes k h ^^^ scr64 (leAt 64 bytes 8 (8 * k))) * m64 := by
  simp [mix64Words, List.range_succ]

theorem m64Fin_delivers (h : Hashing base bytes off s) (hphase : s.phase = .m64Fin) : DeliversIn 1 s (fin64 s.h64) :=
  h.deliversIn_one (t := { s with h64 := fin64 s.h64 }) (by rw [phaseStep_m64Fin hphase, m64Fin])
    ⟨rfl, rfl, rfl, rfl, rfl, rfl⟩

/-- The folds of the tail, byte by byte, are one fold of its little-endian value (R163). -/
theorem m64Folds_eq (h : Hashing base bytes off s) {j : Nat} (hoff : off + j ≤ bytes.length) (g : W64) :
    m64Folds s j g = .value (g ^^^ leAt 64 bytes j off) := by
  induction j generalizing g with
  | zero => simp [m64Folds, leAt, leValue, leNat]
  | succ j ih =>
    rw [m64Folds, h.readWord_ahead 64 j 1 (by omega), Answer.andThen_value, ih (by omega),
      leAt_succ (j := j) 64 (by omega), BitVec.xor_assoc, BitVec.xor_comm (leAt 64 bytes j off)]

theorem m64Tail_delivers (h : Hashing base bytes off s) (hphase : s.phase = .m64Body) (hrem : s.rem.toNat < 8)
    (hoff : off + s.rem.toNat ≤ bytes.length) :
    DeliversIn 2 s (fin64 (mix64Tail bytes s.rem.toNat off s.h64)) := by
  have hmul : (if s.rem = 0 then s.h64 ^^^ leAt 64 bytes s.rem.toNat off
      else (s.h64 ^^^ leAt 64 bytes s.rem.toNat off) * m64) = mix64Tail bytes s.rem.toNat off s.h64 := by
    by_cases hzero : s.rem = 0
    · simp [hzero, mix64Tail, leAt, leValue, leNat]
    · have hpos : 1 ≤ s.rem.toNat := by bv_omega
      rw [mix64Tail, if_neg hzero, if_pos hpos]
  have hturn : engineTurn s = { s with
      h64 := mix64Tail bytes s.rem.toNat off s.h64, ptr := s.ptr + s.rem, rem := 0, phase := .m64Fin } := by
    rw [h.engineTurn_eq, phaseStep_m64Body hphase, m64Body, if_neg (Nat.not_le.2 hrem), m64Tail, m64Folds_eq h hoff,
      onAnswer_value, hmul]
  refine .of_turn hturn rfl ?_
  exact m64Fin_delivers (h.advance s.rem.toNat (by simp) ⟨rfl, rfl, rfl, rfl, rfl, rfl⟩) rfl

/-- From `j` words on: the words still to read, and the tail. -/
theorem m64Body_delivers {j k : Nat} {g : W64} (h : Hashing base bytes (8 * j) s) (hphase : s.phase = .m64Body)
    (hrem : 8 * j + s.rem.toNat = bytes.length) (hk : s.rem.toNat / 8 = k) (hwords : s.h64 = mix64Words bytes j g) :
    DeliversIn (k + 2) s (fin64 (mix64Tail bytes (s.rem.toNat % 8) (8 * (j + k)) (mix64Words bytes (j + k) g))) := by
  induction k generalizing j s with
  | zero =>
    rw [Nat.zero_add, Nat.add_zero j, ← hwords, Nat.mod_eq_of_lt (by omega)]
    exact m64Tail_delivers h hphase (by omega) (by omega)
  | succ k ih =>
    have hturn : engineTurn s = { s with
        h64 := (s.h64 ^^^ scr64 (leAt 64 bytes 8 (8 * j))) * m64, ptr := s.ptr + 8, rem := s.rem - 8 } := by
      rw [h.engineTurn_eq, phaseStep_m64Body hphase, m64Body, if_pos (by omega), m64Word,
        h.readWord_here 64 8 (by omega), onAnswer_value]
    have hleft : (s.rem - 8).toNat = s.rem.toNat - 8 := by bv_omega
    have hmod : s.rem.toNat % 8 = (s.rem - 8).toNat % 8 := by omega
    rw [hmod, show j + (k + 1) = j + 1 + k by omega]
    refine .of_turn hturn rfl (ih (j := j + 1) ?_ ?_ ?_ ?_ ?_)
    · exact h.advance 8 rfl ⟨rfl, rfl, rfl, rfl, rfl, rfl⟩
    · exact hphase
    · change 8 * (j + 1) + (s.rem - 8).toNat = _
      omega
    · change (s.rem - 8).toNat / 8 = _
      omega
    · rw [mix64Words_succ, ← hwords]

/-! ### The end of `FH64` (42_fasthash64_scalar.md R182 to R186) -/

/-- The scalar tail of `r` bytes at `off`, and the final hash (R182, R186). -/
def tailHash (c : Params) (bytes : List Byte) (off r : Nat) (ab : W64 × W64) : W64 :=
  let ab' := scalarTail c bytes off r ab.1 ab.2
  finFh c ab'.1 ab'.2

theorem fhFin_delivers (h : Hashing base bytes off s) (hphase : s.phase = .fhFin) :
    DeliversIn 1 s (finFh s.cfg s.a s.b) :=
  h.deliversIn_one (t := s) (by rw [phaseStep_fhFin hphase, fhFinStep]) ⟨rfl, rfl, rfl, rfl, rfl, rfl⟩

/-- A bracket at a place in the buffer (R182). -/
theorem bracketIf_eq (hbuffer : memRead s base bytes.length = .value bytes) {fires : Prop} [Decidable fires]
    (q acc : W64) {n i : Nat} (hi : fires → i + n ≤ bytes.length) :
    bracketIf (decide fires) s q n acc (base + BitVec.ofNat 64 i) =
      .value (if fires then acc + mux (leAt 64 bytes n i) q else acc,
        base + BitVec.ofNat 64 (if fires then i + n else i)) := by
  by_cases hfires : fires
  · rw [bracketIf, if_pos (decide_eq_true hfires), bracket, readWord_part hbuffer 64 i n (hi hfires), if_pos hfires,
      if_pos hfires, Answer.map_value, BitVec.add_assoc, ← BitVec.ofNat_add, leAt]
  · simp [bracketIf, hfires]

/-- The four brackets compute the scalar tail and move the cursor over it (R182). -/
theorem brackets_eq (h : Hashing base bytes off s) {r : Nat} (hr : r ≤ 32) (hoff : off + r ≤ bytes.length) :
    brackets s r = .value ((scalarTail s.cfg bytes off r s.a s.b).1, (scalarTail s.cfg bytes off r s.a s.b).2,
      s.ptr + BitVec.ofNat 64 r) := by
  have hvalues : ∃ ptr, brackets s r =
      .value ((scalarTail s.cfg bytes off r s.a s.b).1, (scalarTail s.cfg bytes off r s.a s.b).2, ptr) := by
    rw [brackets, h.ptr, bracketIf_eq h.buffer _ _ (by omega), Answer.andThen_value,
      bracketIf_eq h.buffer _ _ (by grind), Answer.andThen_value, bracketIf_eq h.buffer _ _ (by grind),
      Answer.andThen_value, bracketIf_eq h.buffer _ _ (by grind), Answer.map_value]
    exact ⟨_, rfl⟩
  obtain ⟨ptr, hptr⟩ := hvalues
  rw [hptr, ← brackets_ptr hr hptr]

theorem fhTail_delivers (h : Hashing base bytes off s) (hphase : s.phase = .fhTail) (hrem : s.rem.toNat ≤ 32)
    (hoff : off + s.rem.toNat ≤ bytes.length) :
    DeliversIn 2 s (tailHash s.cfg bytes off s.rem.toNat (s.a, s.b)) := by
  have hturn : engineTurn s = { s with
      a := (scalarTail s.cfg bytes off s.rem.toNat s.a s.b).1, b := (scalarTail s.cfg bytes off s.rem.toNat s.a s.b).2
      ptr := s.ptr + BitVec.ofNat 64 s.rem.toNat, rem := 0, phase := .fhFin } := by
    rw [h.engineTurn_eq, phaseStep_fhTail hphase, fhTailStep, brackets_eq h hrem hoff, onAnswer_value]
  refine .of_turn hturn rfl ?_
  exact fhFin_delivers (h.advance s.rem.toNat rfl ⟨rfl, rfl, rfl, rfl, rfl, rfl⟩) rfl

/-! ### The block path of `FH64` (43_fasthash64_block.md R200 to R203) -/

/-- The combine of the block path, and the tail of `r` bytes at `off` behind it (R203 step 5, R182). -/
def combHash (c : Params) (bytes : List Byte) (off r : Nat) (xy : V128 × V128) : W64 :=
  tailHash c bytes off r (fhComb c xy.1 xy.2)

/-- `k` bulk iterations and `m` pairs from `off` on, and all that comes behind them (R203). -/
def blocksHash (c : Params) (bytes : List Byte) (off k m r : Nat) (xys : V128 × V128 × V128) : W64 :=
  let xys' := bulkRun c bytes off k xys
  combHash c bytes (off + 128 * k + 32 * m) r (pairRun c bytes (off + 128 * k) m (xys'.1, xys'.2.1))

theorem pairRun_succ (c : Params) (bytes : List Byte) (off k : Nat) (q : V128 × V128) :
    pairRun c bytes off (k + 1) q = pairRun c bytes (off + 32) k (pairAt c bytes off q) := by
  simp [pairRun, List.range_succ_eq_map, List.foldl_map, Nat.mul_add, Nat.add_assoc, Nat.add_comm 32]

theorem bulkRun_succ (c : Params) (bytes : List Byte) (off k : Nat) (q : V128 × V128 × V128) :
    bulkRun c bytes off (k + 1) q = bulkRun c bytes (off + 128) k (bulkAt c bytes off q) := by
  simp [bulkRun, List.range_succ_eq_map, List.foldl_map, Nat.mul_add, Nat.add_assoc, Nat.add_comm 128]

theorem fhComb_delivers (h : Hashing base bytes off s) (hphase : s.phase = .fhBlk) (hnblk : s.nblk.toNat < 2)
    (hrem : s.rem.toNat ≤ 32) (hoff : off + s.rem.toNat ≤ bytes.length) :
    DeliversIn 3 s (combHash s.cfg bytes off s.rem.toNat (s.x, s.y)) := by
  have hturn : engineTurn s = fhCombStep s := by
    rw [h.engineTurn_eq, phaseStep_fhBlk hphase, fhBlkStep, if_neg (by omega), if_neg (by omega)]
  refine .of_turn hturn rfl ?_
  exact fhTail_delivers (s := fhCombStep s) (h.stay rfl ⟨rfl, rfl, rfl, rfl, rfl, rfl⟩) rfl hrem hoff

theorem fhPairs_deliver {k : Nat} (h : Hashing base bytes off s) (hphase : s.phase = .fhBlk) (hk : k < 4)
    (hnblk : s.nblk.toNat = 2 * k) (hrem : s.rem.toNat ≤ 32) (hoff : off + 32 * k + s.rem.toNat ≤ bytes.length) :
    DeliversIn (k + 3) s (combHash s.cfg bytes (off + 32 * k) s.rem.toNat (pairRun s.cfg bytes off k (s.x, s.y))) := by
  induction k generalizing off s with
  | zero => exact fhComb_delivers h hphase (by omega) hrem hoff
  | succ k ih =>
    have hturn : engineTurn s = { s with
        x := (pairAt s.cfg bytes off (s.x, s.y)).1, y := (pairAt s.cfg bytes off (s.x, s.y)).2
        ptr := s.ptr + 32, nblk := s.nblk - 2 } := by
      rw [h.engineTurn_eq, phaseStep_fhBlk hphase, fhBlkStep, if_neg (by omega), if_pos (by omega)]
      simp only [fhPairStep, BitVec.ofNat_eq_ofNat, h.readWord_here 128 16 (by omega),
        h.readWord_ahead 128 16 16 (by omega), Answer.andThen_value, Answer.map_value, onAnswer_value, pairAt]
    rw [pairRun_succ, show off + 32 * (k + 1) = off + 32 + 32 * k by omega]
    refine .of_turn hturn rfl (ih ?_ ?_ (by omega) ?_ ?_ ?_)
    · exact h.advance 32 rfl ⟨rfl, rfl, rfl, rfl, rfl, rfl⟩
    · exact hphase
    · change (s.nblk - 2).toNat = _
      bv_omega
    · exact hrem
    · change off + 32 + 32 * k + s.rem.toNat ≤ _
      omega

theorem fhBulks_deliver {k m : Nat} (h : Hashing base bytes off s) (hphase : s.phase = .fhBlk) (hm : m < 4)
    (hnblk : s.nblk.toNat = 8 * k + 2 * m) (hrem : s.rem.toNat ≤ 32)
    (hoff : off + 128 * k + 32 * m + s.rem.toNat ≤ bytes.length) :
    DeliversIn (k + (m + 3)) s (blocksHash s.cfg bytes off k m s.rem.toNat (s.x, s.y, s.salt)) := by
  induction k generalizing off s with
  | zero =>
    rw [Nat.zero_add]
    exact fhPairs_deliver h hphase hm (by omega) hrem (by omega)
  | succ k ih =>
    have hturn : engineTurn s = { s with
        x := (bulkAt s.cfg bytes off (s.x, s.y, s.salt)).1, y := (bulkAt s.cfg bytes off (s.x, s.y, s.salt)).2.1
        salt := (bulkAt s.cfg bytes off (s.x, s.y, s.salt)).2.2, ptr := s.ptr + 128, nblk := s.nblk - 8 } := by
      have hblock (i : Nat) (hi : i + 16 ≤ 128) :
          readWord s 128 (s.ptr + BitVec.ofNat 64 i) 16 = .value (leAt 128 bytes 16 (off + i)) :=
        h.readWord_ahead 128 i 16 (by omega)
      rw [h.engineTurn_eq, phaseStep_fhBlk hphase, fhBlkStep, if_pos (by omega)]
      simp only [fhBulkStep, BitVec.ofNat_eq_ofNat, h.readWord_here 128 16 (by omega), hblock 16 (by decide),
        hblock 32 (by decide), hblock 48 (by decide), hblock 64 (by decide), hblock 80 (by decide),
        hblock 96 (by decide), hblock 112 (by decide), Answer.andThen_value, Answer.map_value, onAnswer_value, bulkAt]
    have hvalue : blocksHash s.cfg bytes off (k + 1) m s.rem.toNat (s.x, s.y, s.salt) =
        blocksHash s.cfg bytes (off + 128) k m s.rem.toNat (bulkAt s.cfg bytes off (s.x, s.y, s.salt)) := by
      rw [blocksHash, blocksHash, bulkRun_succ, show off + 128 * (k + 1) = off + 128 + 128 * k by omega]
    rw [hvalue, Nat.add_right_comm]
    refine .of_turn hturn rfl (ih ?_ ?_ ?_ ?_ ?_)
    · exact h.advance 128 rfl ⟨rfl, rfl, rfl, rfl, rfl, rfl⟩
    · exact hphase
    · change (s.nblk - 8).toNat = _
      bv_omega
    · exact hrem
    · change off + 128 + 128 * k + 32 * m + s.rem.toNat ≤ _
      omega

/-- `X` and `Y` behind the odd block, if there is one (R202). -/
def afterOdd (c : Params) (bytes : List Byte) (n : Nat) (xy : V128 × V128) : V128 × V128 :=
  if n % 2 = 1 then fhOdd c xy.1 xy.2 (leAt 128 bytes 16 0) else xy

/-- The hash of `n` whole blocks from the first byte on and a tail of `r` bytes, with `X` and `Y` as `FH_INIT` left them
(R202, R203): the odd block, the bulk iterations, the pairs, and all that comes behind them. -/
def allBlocksHash (c : Params) (bytes : List Byte) (n r : Nat) (xy : V128 × V128) : W64 :=
  let xy' := afterOdd c bytes n xy
  blocksHash c bytes (16 * (n % 2)) ((n - n % 2) / 8) ((n - n % 2) % 8 / 2) r (xy'.1, xy'.2, xy'.2)

theorem toNat_evenBlocks {v : W64} {n : Nat} (hv : v.toNat = n) : (v - BitVec.ofNat 64 (n % 2)).toNat = n - n % 2 := by
  rcases Nat.mod_two_eq_zero_or_one n with hn | hn
  · simp [hn, hv]
  · rw [hn]
    bv_omega

/-- The turn in `FH_ODD`, with `n` blocks to read: one of them, if `n` is odd (R202). -/
theorem fhOdd_turn {n : Nat} (h : Hashing base bytes 0 s) (hphase : s.phase = .fhOdd) (hnblk : s.nblk.toNat = n)
    (hoff : 16 * n ≤ bytes.length) :
    engineTurn s = { s with
      x := (afterOdd s.cfg bytes n (s.x, s.y)).1, y := (afterOdd s.cfg bytes n (s.x, s.y)).2
      salt := (afterOdd s.cfg bytes n (s.x, s.y)).2, ptr := s.ptr + BitVec.ofNat 64 (16 * (n % 2))
      nblk := s.nblk - BitVec.ofNat 64 (n % 2), phase := .fhBlk } := by
  have hodd := getLsbD_zero_iff s.nblk
  rw [hnblk] at hodd
  rw [h.engineTurn_eq, phaseStep_fhOdd hphase, fhOddStep]
  rcases Nat.mod_two_eq_zero_or_one n with hn | hn
  · rw [if_neg (by rw [hodd]; omega), hn, afterOdd, if_neg (by omega)]
    simp
  · rw [if_pos (hodd.2 hn), h.readWord_here 128 16 (by omega), onAnswer_value, hn, afterOdd, if_pos hn]
    rfl

theorem fhOdd_delivers {n : Nat} (h : Hashing base bytes 0 s) (hphase : s.phase = .fhOdd) (hnblk : s.nblk.toNat = n)
    (hrem : s.rem.toNat ≤ 32) (hoff : 16 * n + s.rem.toNat ≤ bytes.length) :
    DeliversIn ((n - n % 2) / 8 + ((n - n % 2) % 8 / 2 + 3) + 1) s
      (allBlocksHash s.cfg bytes n s.rem.toNat (s.x, s.y)) := by
  have hturn := fhOdd_turn h hphase hnblk (by omega)
  refine .of_turn hturn rfl (fhBulks_deliver (base := base) ?_ rfl (by omega) ?_ hrem ?_)
  · have hgo := h.advance (t := engineTurn s) (16 * (n % 2)) (by rw [hturn])
      (by rw [hturn]; exact ⟨rfl, rfl, rfl, rfl, rfl, rfl⟩)
    rwa [Nat.zero_add, hturn] at hgo
  · refine (toNat_evenBlocks hnblk).trans ?_
    omega
  · change _ + s.rem.toNat ≤ _
    omega

theorem fhInit_delivers (h : Hashing base bytes 0 s) (hphase : s.phase = .fhInit) (hrem : s.rem.toNat = bytes.length)
    (hlong : 32 < bytes.length) :
    DeliversIn (stepCount .fh64 bytes.length) s
      (allBlocksHash s.cfg bytes (bytes.length / 16) (bytes.length % 16) (fhInit s.cfg s.a s.b)) := by
  have hturn : engineTurn s = fhInitStep s := by rw [h.engineTurn_eq, phaseStep_fhInit hphase]
  have hnblk : (fhInitStep s).nblk.toNat = bytes.length / 16 := by
    rw [← hrem]
    exact toNat_shiftRight_four s.rem
  have hleft : (fhInitStep s).rem.toNat = bytes.length % 16 := by
    rw [← hrem]
    exact toNat_and_fifteen s.rem
  have hodd := fhOdd_delivers (s := fhInitStep s) (h.stay rfl ⟨rfl, rfl, rfl, rfl, rfl, rfl⟩) rfl hnblk (by omega)
    (by omega)
  rw [hleft] at hodd
  have hcount : stepCount .fh64 bytes.length = (bytes.length / 16 - bytes.length / 16 % 2) / 8 +
      ((bytes.length / 16 - bytes.length / 16 % 2) % 8 / 2 + 3) + 1 + 1 := by
    rw [stepCount, if_neg (by omega)]
    dsimp only
    omega
  rw [hcount]
  exact .of_turn hturn rfl hodd

end

/-! ### From the issue of a hash command on -/

section
variable {i : Instr} {s : State} {bytes : List Byte}

theorem memRead_of_sameMemory {t : State} (hmem : t.mem = s.mem) (hplat : t.plat = s.plat) (a : Addr) (n : Nat) :
    memRead t a n = memRead s a n :=
  memRead_congr fun _ _ => byteAnswer_congr hmem hplat _

/-- The caller's contract on the bytes speaks of the memory, the map and the true buffers alone (R275). -/
theorem bufferAt_of_sameMemory {t : State} {a : Addr} (hmem : t.mem = s.mem) (hplat : t.plat = s.plat)
    (hbuffers : t.buffers = s.buffers) (h : s.bufferAt a bytes) : t.bufferAt a bytes := by
  rwa [State.bufferAt, memRead_of_sameMemory hmem hplat, hbuffers]

/-- A hash command that starts on a true buffer hashes it from its first byte on (R43, R275). -/
theorem startState_hashing (hreads : readsBuffer i = true) (hrst : s.rst = false) (hlen : s.len.toNat = bytes.length)
    (hbuffer : s.bufferAt s.data bytes) : Hashing s.data bytes 0 (startState i s) where
  busy := by rw [startState_status, statusAccepted_eq]
  rst := by rw [startState_rst, hrst]
  closed := by
    rw [resultOpen_eq_false, startState_raced, startState_strayed, hlen, hbuffer.2]
    simp
  buffer := by
    rw [memRead_of_sameMemory (startState_mem i s) (startState_plat i s)]
    exact hbuffer.1
  ptr := by
    cases i with
    | mix32 | mix64a | fh64 => simp [startState, acceptedBuffer, initMix32, initMix64a, initFh64]
    | fin32 | fin64 | finfh => cases hreads

/-- The low word of a length below `2^31` is all of it (R113). -/
theorem len32_eq (hlen : s.len.toNat = bytes.length) : s.len32 = BitVec.ofNat 32 bytes.length := by
  apply BitVec.eq_of_toNat_eq
  simp [State.len32, hlen]

theorem len_eq_ofNat {n : Nat} (hlen : s.len.toNat = n) : s.len = BitVec.ofNat 64 n := by
  rw [← hlen, BitVec.ofNat_toNat, BitVec.setWidth_eq]

theorem mix32_delivers (hlen : s.len.toNat = bytes.length) (h : Hashing s.data bytes 0 (startState .mix32 s)) :
    DeliversIn (bytes.length / 4 + 2) (startState .mix32 s) ((mix32Hash bytes s.seed32).setWidth 64) := by
  have hbody := m32Body_delivers (j := 0) (k := bytes.length / 4) (g := s.seed32 ^^^ (s.len32 * m32)) h rfl
    ((Nat.zero_add _).trans hlen) (congrArg (· / 4) hlen) rfl
  rw [show (startState .mix32 s).rem.toNat = bytes.length from hlen, Nat.zero_add, len32_eq hlen,
    show 4 * (bytes.length / 4) = bytes.length - bytes.length % 4 by omega] at hbody
  exact hbody

theorem mix64a_delivers (hlen : s.len.toNat = bytes.length) (hshort : bytes.length < 2 ^ 31)
    (h : Hashing s.data bytes 0 (startState .mix64a s)) :
    DeliversIn (bytes.length / 8 + 2) (startState .mix64a s) (mix64aHash bytes s.seed) := by
  have hlen64 : s.len32.setWidth 64 = BitVec.ofNat 64 bytes.length := by
    apply BitVec.eq_of_toNat_eq
    rw [len32_eq hlen]
    simp
    omega
  have hbody := m64Body_delivers (j := 0) (k := bytes.length / 8) (g := s.seed ^^^ (s.len32.setWidth 64 * m64)) h rfl
    ((Nat.zero_add _).trans hlen) (congrArg (· / 8) hlen) rfl
  rw [show (startState .mix64a s).rem.toNat = bytes.length from hlen, Nat.zero_add, hlen64,
    show 8 * (bytes.length / 8) = bytes.length - bytes.length % 8 by omega] at hbody
  exact hbody

/-- The function of R180 on a buffer of at most 32 bytes: the tail alone. -/
theorem fastHash64_short (c : Params) (seed : W64) (h : bytes.length ≤ 32) :
    fastHash64 c bytes seed = tailHash c bytes 0 bytes.length (seed, BitVec.ofNat 64 bytes.length) := by
  rw [fastHash64, tailHash]
  simp only [Nat.not_lt.2 h, if_false]

/-- The function of R180 on a longer buffer, as the engine computes it: the block path, and then the tail. -/
theorem fastHash64_long (c : Params) (seed : W64) (h : 32 < bytes.length) :
    fastHash64 c bytes seed =
      allBlocksHash c bytes (bytes.length / 16) (bytes.length % 16) (fhInit c seed (BitVec.ofNat 64 bytes.length)) := by
  have hoff : 16 * (bytes.length / 16 % 2) + 128 * ((bytes.length / 16 - bytes.length / 16 % 2) / 8) +
      32 * ((bytes.length / 16 - bytes.length / 16 % 2) % 8 / 2) = bytes.length - bytes.length % 16 := by omega
  simp only [fastHash64, h, if_true, blockPath, allBlocksHash, blocksHash, combHash, tailHash, hoff, afterOdd]

theorem fh64_delivers (hlen : s.len.toNat = bytes.length) (h : Hashing s.data bytes 0 (startState .fh64 s)) :
    DeliversIn (stepCount .fh64 bytes.length) (startState .fh64 s) (fastHash64 s.cfg bytes s.seed) := by
  have hrem : (startState .fh64 s).rem.toNat = bytes.length := hlen
  have hphase := initFh64_phase (acceptedBuffer s)
  rw [show (acceptedBuffer s).len.toNat = bytes.length from hlen] at hphase
  by_cases hlong : 32 < bytes.length
  · rw [if_pos hlong] at hphase
    rw [fastHash64_long _ _ hlong, ← len_eq_ofNat hlen]
    exact fhInit_delivers h hphase hrem hlong
  · rw [if_neg hlong] at hphase
    rw [fastHash64_short _ _ (by omega), ← len_eq_ofNat hlen, ← hrem, stepCount, if_pos (by omega)]
    exact fhTail_delivers h hphase (by omega) (by omega)

/-- A hash command on a true buffer delivers the hash of it, in the steps `stepCount` counts. -/
theorem startState_delivers (hreads : readsBuffer i = true) (hrst : s.rst = false) (hlen : s.len.toNat = bytes.length)
    (hlegal : i ≠ .fh64 → bytes.length < 2 ^ 31) (hbuffer : s.bufferAt s.data bytes) :
    DeliversIn (stepCount i bytes.length) (startState i s) (hashOf i s.cfg bytes s.seed) := by
  have h := startState_hashing hreads hrst hlen hbuffer
  cases i with
  | mix32 =>
    have hseed : s.seed32 = s.seed.setWidth 32 := (BitVec.setWidth_eq_extractLsb' (by decide)).symm
    rw [hashOf, ← hseed]
    exact mix32_delivers hlen h
  | mix64a => exact mix64a_delivers hlen (hlegal nofun) h
  | fh64 => exact fh64_delivers hlen h
  | fin32 | fin64 | finfh => cases hreads

/-- A hash command with a legal length that keeps the contract starts (R112). -/
theorem starts_of_legal (hlen : s.len.toNat = bytes.length) (hlegal : i ≠ .fh64 → bytes.length < 2 ^ 31)
    (hcontract : s.keepsContract) : Starts i s where
  length := by
    cases i with
    | mix32 | mix64a => exact lenTooLong_of_lt (hlen ▸ hlegal nofun)
    | fh64 | fin32 | fin64 | finfh => rfl
  contract := fun _ => keepsContract_iff.1 hcontract

/-- The issue of a hash command at an idle engine, and the outcome of its engine steps. -/
theorem exec_delivers (hreads : readsBuffer i = true) (hidle : s.status.busy = false) (hrst : s.rst = false)
    (hlen : s.len.toNat = bytes.length) (hlegal : i ≠ .fh64 → bytes.length < 2 ^ 31) (hcontract : s.keepsContract)
    (hbuffer : s.bufferAt s.data bytes) :
    ∃ t, exec i s = .next t ∧ t.status = Status.running s.status.ovr ∧
      DeliversIn (stepCount i bytes.length) t (hashOf i s.cfg bytes s.seed) := by
  refine ⟨_, exec_of_starts hidle (starts_of_legal hlen hlegal hcontract), ?_,
    startState_delivers (s := clearedForIssue s) hreads hrst hlen hlegal
      (bufferAt_of_sameMemory (s := s) rfl rfl rfl hbuffer)⟩
  rw [startState_status]
  rfl

end

end Sys2Proof.Machine

/-!
# 30_encoding.md: scripts

What the host does with each kind of line, and the script `CALL` under every schedule of the host's and the engine's
turns.
-/

namespace Sys2Proof.Machine

/-! ### The lines of a script (30_encoding.md R116, R117) -/

section
variable {p : Script} {s : State} {rest : List Line}

theorem hostTurn_wr (hrst : s.rst = false) {r : Register} {v : W64} (hr : r ≠ .cmd) (h : p.lines = .wr r v :: rest) :
    hostTurn p s = .next ({ p with lines := rest }, writeRegister s r v) :=
  hostTurn_of_event h rfl (takeEvent_write hrst hr v)

theorem hostTurn_command (hrst : s.rst = false) {i : Instr} {t : State} (h : p.lines = commandLine i :: rest)
    (hexec : exec i s = .next t) : hostTurn p s = .next ({ p with lines := rest }, t) :=
  hostTurn_of_event h rfl ((takeEvent_command hrst i).trans hexec)

theorem hostTurn_rd (hrst : s.rst = false) {r : Register} {n : ValueName} (h : p.lines = .rd r n :: rest) :
    hostTurn p s = .next ({ p with lines := rest, values := (n, readRegister s r) :: p.values },
      { s with rdata := readRegister s r }) :=
  hostTurn_of_event h rfl (takeEvent_read hrst r)

/-- `WAIT` looks at bit 0 of the word it reads, which is `BUSY`. -/
theorem hostTurn_wait (hrst : s.rst = false) {n : ValueName} (h : p.lines = .wait n :: rest) :
    hostTurn p s = .next
      ({ p with
          lines := if s.status.busy then .wait n :: rest else rest
          values := (n, statusWord s.status) :: p.values },
        { s with rdata := statusWord s.status }) := by
  rw [hostTurn_of_event h rfl (takeEvent_read hrst .status)]
  simp only [afterLine, readRegister, getLsbD_statusWord_busy]

theorem hostTurn_errorIf {n : ValueName} {bit : Nat} {v : W64} (h : p.lines = .errorIf n bit :: rest)
    (hv : scriptValue p n = some v) :
    hostTurn p s = .next ({ p with lines := rest, inError := p.inError || v.getLsbD bit }, s) := by
  simp [hostTurn_of_test h, afterLine, hv]

end

/-- Settles O59: each kind of line, by its own lemma. -/
theorem scriptLineByLine : Obligations.ScriptLineByLine :=
  fun _ _ _ hrst => ⟨fun _ _ hr h => hostTurn_wr hrst hr h, fun _ h _ hexec => hostTurn_command hrst h hexec,
    fun _ _ h => hostTurn_rd hrst h, fun _ h => hostTurn_wait hrst h, fun _ _ _ h hv => hostTurn_errorIf h hv⟩

/-! ### The engine does not see what the host changes beside it (10_state.md R34 to R37, R39) -/

/-- All that a host may change while a command runs, the flags apart: `CTRL`, the operand registers, and what it last
read. -/
structure HostSide where
  ie : Bool
  data : W64
  len : W64
  seed : W64
  rdata : W64

def State.withHostSide (s : State) (h : HostSide) : State :=
  { s with ie := h.ie, data := h.data, len := h.len, seed := h.seed, rdata := h.rdata }

section
variable (s : State) (h : HostSide)

theorem onAnswer_withHostSide {α : Type} {r r' : Answer α} {k k' : α → State} (hr : r' = r)
    (hk : ∀ v, k' v = (k v).withHostSide h) :
    onAnswer (s.withHostSide h) r' k' = (onAnswer s r k).withHostSide h := by
  subst hr
  cases r' with
  | value v => exact hk v
  | busError | noAnswer => rfl

theorem deliver_withHostSide (v : W64) : deliver v (s.withHostSide h) = (deliver v s).withHostSide h := by
  cases hopen : s.resultOpen with
  | true => rw [deliver_of_open hopen, deliver_of_open (s := s.withHostSide h) hopen]; rfl
  | false => rw [deliver_eq_complete hopen, deliver_eq_complete (s := s.withHostSide h) hopen]; rfl

theorem readWord_withHostSide (w : Nat) (a : Addr) (n : Nat) : readWord (s.withHostSide h) w a n = readWord s w a n :=
  readWord_congr (s := s.withHostSide h) (s' := s) rfl rfl w a n

theorem m32Body_withHostSide : m32Body (s.withHostSide h) = (m32Body s).withHostSide h := by
  change (if 4 ≤ s.rem.toNat then m32Word (s.withHostSide h) else m32Tail (s.withHostSide h)) = _
  rw [m32Body]
  split_ifs
  · exact onAnswer_withHostSide s h (readWord_withHostSide ..) fun _ => rfl
  · exact onAnswer_withHostSide s h (m32Folds_congr (s := s.withHostSide h) (s' := s) rfl rfl rfl ..) fun _ => rfl

theorem m64Body_withHostSide : m64Body (s.withHostSide h) = (m64Body s).withHostSide h := by
  change (if 8 ≤ s.rem.toNat then m64Word (s.withHostSide h) else m64Tail (s.withHostSide h)) = _
  rw [m64Body]
  split_ifs
  · exact onAnswer_withHostSide s h (readWord_withHostSide ..) fun _ => rfl
  · exact onAnswer_withHostSide s h (m64Folds_congr (s := s.withHostSide h) (s' := s) rfl rfl rfl ..) fun _ => rfl

theorem fhOddStep_withHostSide : fhOddStep (s.withHostSide h) = (fhOddStep s).withHostSide h := by
  cases hodd : s.nblk.getLsbD 0 with
  | true =>
    rw [fhOddStep, fhOddStep, if_pos hodd, if_pos (c := (s.withHostSide h).nblk.getLsbD 0 = true) hodd]
    exact onAnswer_withHostSide s h (readWord_withHostSide ..) fun _ => rfl
  | false =>
    rw [fhOddStep, fhOddStep, if_neg (Bool.eq_false_iff.1 hodd),
      if_neg (c := (s.withHostSide h).nblk.getLsbD 0 = true) (Bool.eq_false_iff.1 hodd)]
    rfl

theorem fhBlkStep_withHostSide : fhBlkStep (s.withHostSide h) = (fhBlkStep s).withHostSide h := by
  change (if 8 ≤ s.nblk.toNat then fhBulkStep (s.withHostSide h)
    else if 2 ≤ s.nblk.toNat then fhPairStep (s.withHostSide h) else fhCombStep (s.withHostSide h)) = _
  rw [fhBlkStep]
  split_ifs
  · refine onAnswer_withHostSide s h ?_ fun _ => rfl
    simp only [readWord_withHostSide]
    rfl
  · refine onAnswer_withHostSide s h ?_ fun _ => rfl
    simp only [readWord_withHostSide]
    rfl
  · rfl

theorem phaseStep_withHostSide : phaseStep (s.withHostSide h) = (phaseStep s).withHostSide h := by
  rw [phaseStep, phaseStep, show (s.withHostSide h).phase = s.phase from rfl]
  cases s.phase with
  | idle | fhInit => rfl
  | m32Body => exact m32Body_withHostSide s h
  | m64Body => exact m64Body_withHostSide s h
  | fhOdd => exact fhOddStep_withHostSide s h
  | fhBlk => exact fhBlkStep_withHostSide s h
  | fhTail =>
    exact onAnswer_withHostSide s h
      (brackets_congr (s := s.withHostSide h) (s' := s) rfl rfl rfl rfl rfl rfl _) fun _ => rfl
  | m32Fin => exact deliver_withHostSide { s with h32 := fin32 s.h32 } h _
  | m64Fin => exact deliver_withHostSide { s with h64 := fin64 s.h64 } h _
  | fhFin | fuOnly32 | fuOnly64 | fuOnlyFh => exact deliver_withHostSide s h _

/-- The engine's turn and a change of the host's side may be taken in either order (70_reset_and_hazards.md R315). -/
theorem engineTurn_withHostSide : engineTurn (s.withHostSide h) = (engineTurn s).withHostSide h := by
  change (if s.status.busy && !s.rst then phaseStep (s.withHostSide h) else s.withHostSide h) = _
  rw [engineTurn]
  split_ifs
  · exact phaseStep_withHostSide s h
  · rfl

end

/-- What the last host read returned does not matter to the engine. -/
theorem engineTurn_rdata_update (s : State) (v : W64) :
    engineTurn { s with rdata := v } = { engineTurn s with rdata := v } := by
  refine (engineTurn_withHostSide s ⟨s.ie, s.data, s.len, s.seed, v⟩).trans ?_
  simp [State.withHostSide]

/-! ### Turns of the engine, taken out of order (10_state.md R30) -/

/-- An engine that is idle after `j` turns is as it was whenever it is idle. -/
theorem engineRun_eq_of_idle {s : State} {j k : Nat} (hj : (engineRun j s).status.busy = false)
    (hk : (engineRun k s).status.busy = false) : engineRun j s = engineRun k s := by
  rcases Nat.le_total j k with h | h
  · obtain ⟨d, rfl⟩ := Nat.exists_eq_add_of_le h
    rw [engineRun_add, engineRun_of_idle hj]
  · obtain ⟨d, rfl⟩ := Nat.exists_eq_add_of_le h
    rw [engineRun_add, engineRun_of_idle hk]

theorem engineTurn_engineRun (k : Nat) (s : State) : engineTurn (engineRun k s) = engineRun (k + 1) s :=
  (engineRun_add k 1 s).symm

theorem runTurns_host {p q : Script} {s t : State} (h : hostTurn p s = .next (q, t)) (xs : List Turn) :
    runTurns (.host :: xs) p s = runTurns xs q t :=
  runTurns_cons (x := .host) h xs

theorem runTurns_engine (n : Nat) (p : Script) (s : State) :
    runTurns (List.replicate n (.world .engine)) p s = .next (p, engineRun n s) := by
  induction n generalizing s with
  | zero => rfl
  | succ n ih => rw [List.replicate_succ, runTurns_cons (takeTurn_engine p s), ih, engineRun_succ]

/-- What every turn of the host and of the engine keeps, every schedule of theirs keeps; `n` counts the host's turns. -/
theorem runTurns_induct {P : Nat → Script → State → Prop}
    (hhost : ∀ n p s, P n p s → ∃ q t, hostTurn p s = .next (q, t) ∧ P (n + 1) q t)
    (hengine : ∀ n p s, P n p s → P n p (engineTurn s)) :
    ∀ turns : List Turn, (∀ x ∈ turns, x = .host ∨ x = .world .engine) → ∀ n p s, P n p s →
      ∃ q t, runTurns turns p s = .next (q, t) ∧ P (n + turns.count .host) q t := by
  intro turns
  induction turns with
  | nil => exact fun _ _ p s h => ⟨p, s, rfl, h⟩
  | cons x xs ih =>
    intro hturns n p s h
    have hxs : ∀ x ∈ xs, x = .host ∨ x = .world .engine := fun y hy => hturns y (List.mem_cons_of_mem x hy)
    rcases hturns x List.mem_cons_self with rfl | rfl
    · obtain ⟨q, t, hturn, hq⟩ := hhost n p s h
      obtain ⟨q', t', hrun, hq'⟩ := ih hxs (n + 1) q t hq
      refine ⟨q', t', (runTurns_host hturn xs).trans hrun, ?_⟩
      rwa [List.count_cons_self, ← Nat.add_assoc, Nat.add_right_comm]
    · obtain ⟨q', t', hrun, hq'⟩ := ih hxs n p (engineTurn s) (hengine n p s h)
      refine ⟨q', t', (runTurns_cons (takeTurn_engine p s) xs).trans hrun, ?_⟩
      rwa [List.count_cons_of_ne (by decide)]

/-! ### The script `CALL` (30_encoding.md R117) -/

/-- The engine with the operands of a call in its registers. -/
def State.withOperands (s : State) (data len seed : W64) : State := { s with data := data, len := len, seed := seed }

/-- The `CALL` of a command from the state `s`: `t` is the state after its issue, and `n` turns of the engine end it in
`u`. -/
structure CallPlan (i : Instr) (data len seed : W64) (s t u : State) (n : Nat) : Prop where
  idle : s.status.busy = false
  rst : s.rst = false
  issue : exec i (s.withOperands data len seed) = .next t
  run : engineRun n t = u
  ended : u.status.busy = false

/-- How far a `CALL` is, by the number of its lines that are behind it, and the state of the machine there. -/
inductive CallStage (i : Instr) (data len seed : W64) (s t u : State) : Nat → Script → State → Prop where
  | atData : CallStage i data len seed s t u 0 (startScript (callLines i data len seed 0 1)) s
  | atLen : CallStage i data len seed s t u 1 (startScript ((callLines i data len seed 0 1).drop 1))
      { s with data := data }
  | atSeed : CallStage i data len seed s t u 2 (startScript ((callLines i data len seed 0 1).drop 2))
      { s with data := data, len := len }
  | atCommand : CallStage i data len seed s t u 3 (startScript ((callLines i data len seed 0 1).drop 3))
      (s.withOperands data len seed)
  | atWait (k : Nat) (v : W64) (values : List (ValueName × W64)) :
      CallStage i data len seed s t u 4 ⟨[.wait 0, .rd .result 1, .errorIf 0 2], values, false⟩
        { engineRun k t with rdata := v }
  | atResult (v : W64) (values : List (ValueName × W64)) :
      CallStage i data len seed s t u 5 ⟨[.rd .result 1, .errorIf 0 2], (0, statusWord u.status) :: values, false⟩
        { u with rdata := v }
  | atTest (v : W64) (values : List (ValueName × W64)) :
      CallStage i data len seed s t u 6 ⟨[.errorIf 0 2], (1, u.result) :: (0, statusWord u.status) :: values, false⟩
        { u with rdata := v }
  | finished (v : W64) (values : List (ValueName × W64)) :
      CallStage i data len seed s t u 7 ⟨[], (1, u.result) :: (0, statusWord u.status) :: values, u.status.err⟩
        { u with rdata := v }

section
variable {i : Instr} {data len seed : W64} {s t u x : State} {n m : Nat} {p : Script}

theorem CallPlan.rst_run (h : CallPlan i data len seed s t u n) (k : Nat) : (engineRun k t).rst = false := by
  rw [engineRun_field State.rst engineTurn_rst, exec_field State.rst rfl rfl (startState_rst i _) h.issue]
  exact h.rst

theorem CallPlan.rst_ended (h : CallPlan i data len seed s t u n) : u.rst = false :=
  h.run ▸ h.rst_run n

/-- The engine's turn moves the machine only while the command runs, behind the `CMD` line. -/
theorem CallStage.engine_goes_on (plan : CallPlan i data len seed s t u n) (h : CallStage i data len seed s t u m p x) :
    CallStage i data len seed s t u m p (engineTurn x) := by
  cases h with
  | atData => rw [engineTurn_of_idle plan.idle]; exact .atData
  | atLen => rw [engineTurn_of_idle (s := { s with data := data }) plan.idle]; exact .atLen
  | atSeed => rw [engineTurn_of_idle (s := { s with data := data, len := len }) plan.idle]; exact .atSeed
  | atCommand => rw [engineTurn_of_idle (s := s.withOperands data len seed) plan.idle]; exact .atCommand
  | atWait k v values =>
    rw [engineTurn_rdata_update, engineTurn_engineRun]
    exact .atWait (k + 1) v values
  | atResult v values => rw [engineTurn_of_idle (s := { u with rdata := v }) plan.ended]; exact .atResult v values
  | atTest v values => rw [engineTurn_of_idle (s := { u with rdata := v }) plan.ended]; exact .atTest v values
  | finished v values => rw [engineTurn_of_idle (s := { u with rdata := v }) plan.ended]; exact .finished v values

/-- The host's turn takes the script a line further, or stays at `WAIT` while the engine is busy. -/
theorem CallStage.host_goes_on (plan : CallPlan i data len seed s t u n) (h : CallStage i data len seed s t u m p x) :
    ∃ m' q y, hostTurn p x = .next (q, y) ∧ CallStage i data len seed s t u m' q y ∧
      (x.status.busy = false → m' = min (m + 1) 7) := by
  cases h with
  | atData => exact ⟨1, _, _, hostTurn_wr plan.rst (r := .data) nofun rfl, .atLen, fun _ => rfl⟩
  | atLen =>
    exact ⟨2, _, _, hostTurn_wr (s := { s with data := data }) plan.rst (r := .len) nofun rfl, .atSeed,
      fun _ => rfl⟩
  | atSeed =>
    exact ⟨3, _, _, hostTurn_wr (s := { s with data := data, len := len }) plan.rst (r := .seed) nofun rfl,
      .atCommand, fun _ => rfl⟩
  | atCommand =>
    exact ⟨4, _, _, hostTurn_command (s := s.withOperands data len seed) plan.rst rfl plan.issue,
      .atWait 0 t.rdata [], fun _ => rfl⟩
  | atWait k v values =>
    have hturn := hostTurn_wait (s := { engineRun k t with rdata := v }) (plan.rst_run k)
      (p := ⟨[.wait 0, .rd .result 1, .errorIf 0 2], values, false⟩) rfl
    cases hbusy : (engineRun k t).status.busy with
    | true =>
      refine ⟨4, _, _, hturn, ?_, nofun⟩
      simp only [hbusy, if_true]
      exact .atWait k _ _
    | false =>
      have hu : engineRun k t = u := plan.run ▸ engineRun_eq_of_idle hbusy (plan.run ▸ plan.ended)
      refine ⟨5, _, _, hturn, ?_, fun _ => rfl⟩
      simp only [hbusy, Bool.false_eq_true, if_false]
      rw [hu]
      exact .atResult _ _
  | atResult v values =>
    exact ⟨6, _, _, hostTurn_rd (s := { u with rdata := v }) plan.rst_ended (r := .result) rfl, .atTest _ _,
      fun _ => rfl⟩
  | atTest v values =>
    refine ⟨7, _, _, hostTurn_errorIf (v := statusWord u.status) rfl rfl, ?_, fun _ => rfl⟩
    rw [getLsbD_statusWord_err]
    exact .finished v values
  | finished v values => exact ⟨7, _, _, hostTurn_of_finished rfl _, .finished v values, fun _ => rfl⟩

/-- A call is in error only if the command is. -/
theorem CallStage.inError_eq (h : CallStage i data len seed s t u m p x) (herr : u.status.err = false) :
    p.inError = false := by
  cases h with
  | finished => exact herr
  | atData | atLen | atSeed | atCommand | atWait | atResult | atTest => rfl

/-- A finished call has read the command's outcome. -/
theorem CallStage.of_finished (h : CallStage i data len seed s t u m p x) (hlines : p.lines = []) :
    p.inError = u.status.err ∧ scriptValue p 1 = some u.result ∧ x.result = u.result ∧ x.status = u.status := by
  cases h with
  | finished => exact ⟨rfl, rfl, rfl, rfl⟩
  | atData | atLen | atSeed | atCommand | atWait | atResult | atTest => cases hlines

theorem CallStage.lines_eq_nil (h : CallStage i data len seed s t u 7 p x) : p.lines = [] := by
  cases h
  rfl

/-- A field of the machine that is none of the host's is as it was at first, or as a run of the command leaves it. -/
theorem CallStage.field {β : Type} (f : State → β) (hf : ∀ y h, f (y.withHostSide h) = f y)
    (plan : CallPlan i data len seed s t u n) (h : CallStage i data len seed s t u m p x) :
    f x = f s ∨ ∃ k, f x = f (engineRun k t) := by
  cases h with
  | atData => exact .inl rfl
  | atLen => exact .inl (hf s ⟨s.ie, data, s.len, s.seed, s.rdata⟩)
  | atSeed => exact .inl (hf s ⟨s.ie, data, len, s.seed, s.rdata⟩)
  | atCommand => exact .inl (hf s ⟨s.ie, data, len, seed, s.rdata⟩)
  | atWait k v =>
    exact .inr ⟨k, hf (engineRun k t)
      ⟨(engineRun k t).ie, (engineRun k t).data, (engineRun k t).len, (engineRun k t).seed, v⟩⟩
  | atResult v | atTest v | finished v => exact .inr ⟨n, plan.run ▸ hf u ⟨u.ie, u.data, u.len, u.seed, v⟩⟩

/-- Before the command is issued and once it has ended the engine is idle. -/
theorem CallStage.busy_eq_false (plan : CallPlan i data len seed s t u 0) (h : CallStage i data len seed s t u m p x) :
    x.status.busy = false := by
  have hrun : t = u := plan.run
  have ht : t.status.busy = false := hrun ▸ plan.ended
  rcases h.field (fun x => x.status.busy) (fun _ _ => rfl) plan with hx | ⟨k, hx⟩
  · exact hx.trans plan.idle
  · rw [hx, engineRun_of_idle ht]
    exact ht

/-- A call goes on under every schedule of the host's and the engine's turns. -/
theorem CallPlan.goes_on (plan : CallPlan i data len seed s t u n) {turns : List Turn}
    (hturns : ∀ x ∈ turns, x = .host ∨ x = .world .engine) :
    ∃ q y m, runTurns turns (startScript (callLines i data len seed 0 1)) s = .next (q, y) ∧
      CallStage i data len seed s t u m q y := by
  obtain ⟨q, y, hrun, m, hm⟩ := runTurns_induct
    (P := fun _ p x => ∃ m, CallStage i data len seed s t u m p x)
    (fun _ _ _ ⟨_, h⟩ => by
      obtain ⟨m', q, y, hturn, hstage, -⟩ := h.host_goes_on plan
      exact ⟨q, y, hturn, m', hstage⟩)
    (fun _ _ _ ⟨m, h⟩ => ⟨m, h.engine_goes_on plan⟩) turns hturns 0 _ _ ⟨0, .atData⟩
  exact ⟨q, y, m, hrun, hm⟩

/-- A call whose command ends at its issue takes a line further with each of the host's turns. -/
theorem CallPlan.goes_on_of_endedAtIssue (plan : CallPlan i data len seed s t u 0) {turns : List Turn}
    (hturns : ∀ x ∈ turns, x = .host ∨ x = .world .engine) :
    ∃ q y, runTurns turns (startScript (callLines i data len seed 0 1)) s = .next (q, y) ∧
      CallStage i data len seed s t u (min (turns.count .host) 7) q y := by
  obtain ⟨q, y, hrun, hstage⟩ := runTurns_induct
    (P := fun k p x => CallStage i data len seed s t u (min k 7) p x)
    (fun k _ _ h => by
      obtain ⟨m', q, y, hturn, hstage, hm⟩ := h.host_goes_on plan
      have hk : m' = min (k + 1) 7 := by
        have := hm (h.busy_eq_false plan)
        omega
      exact ⟨q, y, hturn, hk ▸ hstage⟩)
    (fun _ _ _ h => h.engine_goes_on plan) turns hturns 0 _ _ .atData
  exact ⟨q, y, hrun, by rwa [Nat.zero_add] at hstage⟩

end

/-! ### A rejected length (60_exceptions.md R272) -/

theorem rejectsLength_of_overlong {i : Instr} {s : State} (hi : i = .mix32 ∨ i = .mix64a)
    (h : 2 ^ 31 ≤ s.len.toNat) : rejectsLength i s = true := by
  rcases hi with rfl | rfl <;> exact (lenTooLong_iff s).2 h

/-- Settles O60: the issue ends the command with `BadLength`, and the error test is the seventh turn of the host. -/
theorem callOfABadLengthIsInError : Obligations.CallOfABadLengthIsInError := by
  intro s i data len seed hi hidle hrst hlen turns hturns
  have plan : CallPlan i data len seed s (raiseError .badLength (clearedForIssue (s.withOperands data len seed))) _ 0 :=
    ⟨hidle, hrst, exec_of_rejected (s := s.withOperands data len seed) hidle (rejectsLength_of_overlong hi hlen),
      rfl, rfl⟩
  obtain ⟨q, x, hrun, hstage⟩ := plan.goes_on_of_endedAtIssue hturns
  refine ⟨q, x, hrun, ?_, fun hcount => ?_⟩
  · rcases hstage.field State.result (fun _ _ => rfl) plan with hx | ⟨k, hx⟩
    · exact hx
    · rw [hx, engineRun_of_idle rfl]
      rfl
  · rw [Nat.min_eq_right hcount] at hstage
    obtain ⟨herr, -, -, hstatus⟩ := hstage.of_finished hstage.lines_eq_nil
    exact ⟨hstage.lines_eq_nil, herr, hstatus⟩

/-! ### The script `CALL` of a hash command (30_encoding.md R117, 70_reset_and_hazards.md R314, R316) -/

section
variable {i : Instr} {data len seed : W64} {s t u : State} {n : Nat}

/-- Four turns of the host issue the command. -/
theorem CallPlan.runTurns_issue (plan : CallPlan i data len seed s t u n) :
    runTurns (List.replicate 4 .host) (startScript (callLines i data len seed 0 1)) s =
      .next (startScript [.wait 0, .rd .result 1, .errorIf 0 2], t) := by
  have hdata := hostTurn_wr (p := startScript (callLines i data len seed 0 1)) plan.rst (r := .data) nofun rfl
  have hlen := hostTurn_wr (p := startScript ((callLines i data len seed 0 1).drop 1)) (s := { s with data := data })
    plan.rst (r := .len) nofun rfl
  have hseed := hostTurn_wr (p := startScript ((callLines i data len seed 0 1).drop 2))
    (s := { s with data := data, len := len }) plan.rst (r := .seed) nofun rfl
  have hcommand := hostTurn_command (p := startScript ((callLines i data len seed 0 1).drop 3))
    (s := s.withOperands data len seed) plan.rst rfl plan.issue
  exact (runTurns_host hdata _).trans ((runTurns_host hlen _).trans
    ((runTurns_host hseed _).trans (runTurns_host hcommand _)))

/-- Three turns of the host take a call from `WAIT` to its end, once the command has ended. -/
theorem CallPlan.runTurns_collect (plan : CallPlan i data len seed s t u n) :
    ∃ q x, runTurns (List.replicate 3 .host) (startScript [.wait 0, .rd .result 1, .errorIf 0 2]) u = .next (q, x) ∧
      q.lines = [] := by
  have hwait := hostTurn_wait (p := startScript [.wait 0, .rd .result 1, .errorIf 0 2]) plan.rst_ended rfl
  rw [plan.ended] at hwait
  have hread := hostTurn_rd
    (p := ⟨[.rd .result 1, .errorIf 0 2], [(0, statusWord u.status)], false⟩)
    (s := { u with rdata := statusWord u.status }) plan.rst_ended rfl
  have htest := hostTurn_errorIf
    (p := ⟨[.errorIf 0 2], [(1, u.result), (0, statusWord u.status)], false⟩) (s := { u with rdata := u.result })
    (v := statusWord u.status) rfl rfl
  exact ⟨_, _, (runTurns_host hwait _).trans ((runTurns_host hread _).trans (runTurns_host htest _)), rfl⟩

end

/-- Settles O34: the call is planned with the delivered hash at its end; every schedule keeps a stage of it, and the
stages say what is read; the given schedule issues, lets the command run, and collects. -/
theorem callReadsTheHashBack : Obligations.CallReadsTheHashBack := by
  intro s i data seed bytes hreads hidle hrst hfits hlegal hcontract hbuffer
  have hlen : (BitVec.ofNat 64 bytes.length).toNat = bytes.length := by
    rw [BitVec.toNat_ofNat, Nat.mod_eq_of_lt hfits]
  obtain ⟨t, hissue, hrunning, hdelivers⟩ := exec_delivers
    (s := s.withOperands data (BitVec.ofNat 64 bytes.length) seed) hreads hidle hrst hlen hlegal hcontract
    (bufferAt_of_sameMemory (s := s) rfl rfl rfl hbuffer)
  have hended : (engineRun (stepCount i bytes.length) t).status = Status.completed s.status.ovr := by
    rw [hdelivers.status, hrunning]
    rfl
  have plan : CallPlan i data (BitVec.ofNat 64 bytes.length) seed s t _ (stepCount i bytes.length) :=
    ⟨hidle, hrst, hissue, rfl, by rw [hended]; rfl⟩
  have hmem (k : Nat) : (engineRun k t).mem = s.mem := by
    rw [engineRun_field State.mem engineTurn_mem, exec_field State.mem rfl rfl (startState_mem i _) hissue]
    rfl
  refine ⟨fun turns hturns => ?_, ?_⟩
  · obtain ⟨q, x, m, hrun, hstage⟩ := plan.goes_on hturns
    refine ⟨q, x, hrun, hstage.inError_eq (by rw [hended]; rfl), ?_, fun hlines => ?_⟩
    · rcases hstage.field State.mem (fun _ _ => rfl) plan with hx | ⟨k, hx⟩
      · exact hx
      · rw [hx, hmem]
    · obtain ⟨-, hvalue, hresult, hstatus⟩ := hstage.of_finished hlines
      rw [hdelivers.result] at hvalue hresult
      exact ⟨hvalue, hresult, hstatus.trans hended⟩
  · obtain ⟨q, x, hcollect, hlines⟩ := plan.runTurns_collect
    refine ⟨q, x, ?_, hlines⟩
    rw [List.append_assoc, runTurns_append plan.runTurns_issue, runTurns_append (runTurns_engine ..)]
    exact hcollect

end Sys2Proof.Machine

/-!
# 40_mix32.md: `MIX32`, and the finishing steps of the hash commands
-/

namespace Sys2Proof.Machine

/-! ### A hash command from its issue to its result (10_state.md R57, 30_encoding.md R112) -/

/-- A hash command of a true buffer, given to a quiet machine, runs undisturbed to its result, and leaves the operand
registers, `IE` and the memory alone (R57, R84). -/
theorem hashCommand_runs {i : Instr} {s : State} {bytes : List Byte} (hreads : readsBuffer i = true) (hquiet : s.quiet)
    (hlen : s.len.toNat = bytes.length) (hlegal : i ≠ .fh64 → bytes.length < 2 ^ 31) (hcontract : s.keepsContract)
    (hbuffer : s.bufferAt s.data bytes) :
    ∃ t u : State, exec i s = .next t ∧ t.status = Status.running s.status.ovr ∧
      Sys2Proof.core.run (stepCount i bytes.length) t = .next u ∧
      u.result = hashOf i s.cfg bytes s.seed ∧ u.status = Status.completed s.status.ovr ∧
      u.phase = .idle ∧ u.data = s.data ∧ u.len = s.len ∧ u.seed = s.seed ∧ u.ie = s.ie ∧ u.mem = s.mem := by
  obtain ⟨hidle, hrst, hinbox⟩ := hquiet
  obtain ⟨t, hissue, hrunning, hdelivers⟩ := exec_delivers hreads hidle hrst hlen hlegal hcontract hbuffer
  have kept {β : Type} (f : State → β) (hturn : ∀ x, f (engineTurn x) = f x) (hissued : f t = f s) :
      f (engineRun (stepCount i bytes.length) t) = f s :=
    (engineRun_field f hturn _ t).trans hissued
  refine ⟨t, _, hissue, hrunning, run_of_empty ((exec_idle_inbox hidle hissue).trans hinbox) _, hdelivers.result, ?_,
    hdelivers.phase, ?_, ?_, ?_, ?_, ?_⟩
  · rw [hdelivers.status, hrunning]
    rfl
  · exact kept State.data engineTurn_data (exec_field State.data rfl rfl (startState_data i _) hissue)
  · exact kept State.len engineTurn_len (exec_field State.len rfl rfl (startState_len i _) hissue)
  · exact kept State.seed engineTurn_seed (exec_field State.seed rfl rfl (startState_seed i _) hissue)
  · exact kept State.ie engineTurn_ie (exec_field State.ie rfl rfl (startState_ie i _) hissue)
  · exact kept State.mem engineTurn_mem (exec_field State.mem rfl rfl (startState_mem i _) hissue)

/-- Settles O30: `MIX32` is one of the hash commands, with its own count of steps and its own function. -/
theorem mix32DeliversItsHash : Obligations.Mix32DeliversItsHash :=
  fun _ _ hquiet hlen hshort hcontract hbuffer =>
    hashCommand_runs (i := .mix32) rfl hquiet hlen (fun _ => hshort) hcontract hbuffer

/-! ### The accepting step of `MIX32` (40_mix32.md R141) -/

theorem seed32_eq_setWidth (s : State) : s.seed32 = s.seed.setWidth 32 :=
  (BitVec.setWidth_eq_extractLsb' (by decide)).symm

theorem len32_eq_setWidth (s : State) : s.len32 = s.len.setWidth 32 :=
  (BitVec.setWidth_eq_extractLsb' (by decide)).symm

/-- Settles O9: the command passes its checks, and what it starts from is its init rule's. -/
theorem mix32IsAccepted : Obligations.Mix32IsAccepted := by
  intro s hidle hlen hcontract
  have hstarts : Starts .mix32 s := ⟨lenTooLong_of_lt hlen, fun _ => keepsContract_iff.1 hcontract⟩
  rw [exec_of_starts hidle hstarts, ← seed32_eq_setWidth, ← len32_eq_setWidth]
  rfl

/-! ### The steps of `M32_BODY` (40_mix32.md R142, R143) -/

/-- Settles O15: with a whole word left the turn is the word step, on the word that was read. -/
theorem mix32WordStep : Obligations.Mix32WordStep := by
  intro s k hbusy hrst hphase hrem hread
  rw [engineTurn_of_busy hbusy hrst, phaseStep_m32Body hphase, m32Body, if_pos hrem, m32Word, hread, onAnswer_value]
  rfl

/-- A byte of a readable buffer, as a number of `w` bits (R10). -/
theorem readWord_byte {s : State} {a : Addr} {bytes : List Byte} (h : memRead s a bytes.length = .value bytes) (w : Nat)
    {i : Nat} (hi : i < bytes.length) :
    readWord s w (a + BitVec.ofNat 64 i) 1 = .value ((bytes.getD i 0).setWidth w) := by
  simp [readWord, memRead_succ, byteAnswer_of_memRead h hi, leValue, leNat]

/-- The folds of the tail add the bytes, the one of the highest offset first (R143). -/
theorem m32Folds_of_memRead {s : State} {bytes : List Byte} (h : memRead s s.ptr bytes.length = .value bytes)
    {j : Nat} (hj : j ≤ bytes.length) (g : W32) :
    m32Folds s j g =
      .value ((List.range j).foldr (fun i g => g + ((bytes.getD i 0).setWidth 32 <<< (8 * i))) g) := by
  induction j generalizing g with
  | zero => rfl
  | succ j ih =>
    rw [m32Folds, readWord_byte h 32 hj, Answer.andThen_value, ih (Nat.le_of_succ_le hj), List.range_succ,
      List.foldr_append]
    rfl

/-- Settles O16: the folds add the bytes that were read; the cases are the lists of 0 to 3 bytes, and only the empty one
skips the multiply. -/
theorem mix32TailStep : Obligations.Mix32TailStep := by
  intro s bytes hbusy hrst hphase hrem hread
  have hlength : bytes.length = s.rem.toNat := memRead_length hread
  have hzero : s.rem = 0 ↔ bytes.length = 0 := by
    rw [hlength]
    exact BitVec.toNat_eq
  rw [← hlength] at hread
  rw [engineTurn_of_busy hbusy hrst, phaseStep_m32Body hphase, m32Body, if_neg (Nat.not_le.2 hrem), m32Tail,
    ← hlength, m32Folds_of_memRead hread le_rfl, onAnswer_value]
  simp only [hzero]
  match bytes, hlength with
  | [], _ => rfl
  | [_], _ => simp
  | [_, _], _ => simp [List.range_succ]
  | [_, _, _], _ => simp [List.range_succ]
  | _ :: _ :: _ :: _ :: _, hlength =>
    simp only [List.length_cons] at hlength
    omega

/-! ### The finishing steps (40_mix32.md R144, 41_mix64a.md R164, 42_fasthash64_scalar.md R186) -/

/-- A turn that delivers on an unbroken contract is the normal completion (R57). -/
theorem engineTurn_of_delivers {s t : State} {v : W64} (hbusy : s.status.busy = true) (hrst : s.rst = false)
    (hstep : phaseStep s = deliver v t) (hraced : t.raced = false) (hstrayed : t.strayed = false) :
    engineTurn s = complete v t := by
  rw [engineTurn_of_busy hbusy hrst, hstep, deliver_eq_complete (resultOpen_eq_false.2 ⟨hraced, hstrayed⟩)]

/-- Settles O19: each finishing phase delivers its finalizer. -/
theorem finishingSteps : Obligations.FinishingSteps := by
  intro s hbusy hrst hraced hstrayed
  refine ⟨fun hphase => ?_, fun hphase => ?_, fun hphase => ?_, rotate_right⟩
  · exact engineTurn_of_delivers (t := { s with h32 := fin32 s.h32 }) hbusy hrst (phaseStep_m32Fin hphase) hraced
      hstrayed
  · exact engineTurn_of_delivers (t := { s with h64 := fin64 s.h64 }) hbusy hrst (phaseStep_m64Fin hphase) hraced
      hstrayed
  · exact engineTurn_of_delivers hbusy hrst (phaseStep_fhFin hphase) hraced hstrayed

/-! ### The empty buffer (40_mix32.md R146, 41_mix64a.md R166, 42_fasthash64_scalar.md R188) -/

@[simp] theorem mix32Words_zero (bytes : List Byte) (h : W32) : mix32Words bytes 0 h = h := rfl

@[simp] theorem mix32Tail_zero (bytes : List Byte) (i : Nat) (h : W32) : mix32Tail bytes 0 i h = h := rfl

@[simp] theorem mix64Words_zero (bytes : List Byte) (h : W64) : mix64Words bytes 0 h = h := rfl

@[simp] theorem mix64Tail_zero (bytes : List Byte) (i : Nat) (h : W64) : mix64Tail bytes 0 i h = h := rfl

@[simp] theorem scalarTail_zero (c : Params) (bytes : List Byte) (off : Nat) (a b : W64) :
    scalarTail c bytes off 0 a b = (a, b) := rfl

/-- Settles O35: of no byte there is no word and no tail, and the length adds nothing to the seed. -/
theorem emptyBufferIsTheFinalizer : Obligations.EmptyBufferIsTheFinalizer := by
  refine ⟨fun seed => ?_, fun seed => ?_, fun c seed => ?_⟩
  · simp [mix32Hash]
  · simp [mix64aHash]
  · simp [fastHash64_short, tailHash]

end Sys2Proof.Machine

/-!
# 41_mix64a.md: `MIX64A`
-/

namespace Sys2Proof.Machine

/-- Settles O31: `MIX64A` is one of the hash commands, with its own count of steps and its own function. -/
theorem mix64aDeliversItsHash : Obligations.Mix64aDeliversItsHash :=
  fun _ _ hquiet hlen hshort hcontract hbuffer =>
    hashCommand_runs (i := .mix64a) rfl hquiet hlen (fun _ => hshort) hcontract hbuffer

/-! ### The accepting step of `MIX64A` (41_mix64a.md R161) -/

/-- A length that passes the check of R272 loses nothing when only `LEN[31:0]` is used. -/
theorem len32_setWidth_of_lt {s : State} (hlen : s.len.toNat < 2 ^ 31) : s.len32.setWidth 64 = s.len := by
  rw [len32_eq_setWidth, BitVec.toNat_eq, BitVec.toNat_setWidth, BitVec.toNat_setWidth]
  omega

/-- What an accepted `MIX64A` starts from, with the whole of `LEN` in place of its zero-extended low half (R161). -/
theorem startState_mix64a {s : State} (hlen : s.len.toNat < 2 ^ 31) :
    startState .mix64a s = { acceptedBuffer s with h64 := s.seed ^^^ (s.len * m64), phase := .m64Body } :=
  congrArg (fun n : W64 => { acceptedBuffer s with h64 := s.seed ^^^ (n * m64), phase := .m64Body })
    (len32_setWidth_of_lt hlen)

/-- Settles O10: the command passes its checks, and what it starts from is its init rule's. -/
theorem mix64aIsAccepted : Obligations.Mix64aIsAccepted := by
  intro s hidle hlen hcontract
  have hstarts : Starts .mix64a s := ⟨lenTooLong_of_lt hlen, fun _ => keepsContract_iff.1 hcontract⟩
  rw [exec_of_starts hidle hstarts, startState_mix64a (s := clearedForIssue s) hlen]
  rfl

/-! ### The steps of `M64_BODY` (41_mix64a.md R162, R163) -/

/-- Settles O17: with a whole word left the turn is the word step, on the word that was read. -/
theorem mix64aWordStep : Obligations.Mix64aWordStep := by
  intro s k hbusy hrst hphase hrem hread
  rw [engineTurn_of_busy hbusy hrst, phaseStep_m64Body hphase, m64Body, if_pos hrem, m64Word, hread, onAnswer_value]
  rfl

/-- The folds of the tail take in the first `j` bytes by exclusive or, the one of the highest offset first (R163). -/
theorem m64Folds_of_memRead {s : State} {bytes : List Byte} (h : memRead s s.ptr bytes.length = .value bytes)
    {j : Nat} (hj : j ≤ bytes.length) (g : W64) :
    m64Folds s j g =
      .value ((bytes.take j).zipIdx.foldr (fun (q : Byte × Nat) g => g ^^^ (q.1.setWidth 64 <<< (8 * q.2))) g) := by
  induction j generalizing g with
  | zero => rfl
  | succ j ih =>
    have htake : (bytes.take (j + 1)).zipIdx = (bytes.take j).zipIdx ++ [(bytes.getD j 0, j)] := by
      rw [List.getD_eq_getElem _ _ hj, ← List.take_concat_get' bytes j hj, List.zipIdx_append,
        List.length_take_of_le (Nat.le_of_succ_le hj)]
      simp
    rw [m64Folds, readWord_byte h 64 hj, Answer.andThen_value, ih (Nat.le_of_succ_le hj), htake, List.foldr_append]
    rfl

/-- Settles O18: the folds take in all the bytes that were read, and `REM` is 0 exactly when there are none. -/
theorem mix64aTailStep : Obligations.Mix64aTailStep := by
  intro s bytes hbusy hrst hphase hrem hread
  have hlength : bytes.length = s.rem.toNat := memRead_length hread
  have hzero : s.rem = 0 ↔ bytes = [] := by
    rw [← List.length_eq_zero_iff, hlength]
    exact BitVec.toNat_eq
  rw [← hlength] at hread
  rw [engineTurn_of_busy hbusy hrst, phaseStep_m64Body hphase, m64Body, if_neg (Nat.not_le.2 hrem), m64Tail,
    ← hlength, m64Folds_of_memRead hread le_rfl, onAnswer_value, List.take_length]
  simp only [hzero]
  split_ifs with hempty
  · subst hempty
    rfl
  · rfl

end Sys2Proof.Machine

/-!
# 42_fasthash64_scalar.md: `FH64`
-/

namespace Sys2Proof.Machine

/-- Settles O32: `FH64` is one of the hash commands; of at most 32 bytes, R187 counts two steps. -/
theorem shortFh64DeliversItsHash : Obligations.ShortFh64DeliversItsHash := by
  intro s bytes hquiet hlen hshort hcontract hbuffer
  have hcount : stepCount .fh64 bytes.length = 2 := if_pos hshort
  rw [← hcount]
  exact hashCommand_runs (i := .fh64) rfl hquiet hlen (absurd rfl) hcontract hbuffer

/-- Settles O33: `FH64` is one of the hash commands, and has no limit on the length. -/
theorem longFh64DeliversItsHash : Obligations.LongFh64DeliversItsHash :=
  fun _ _ hquiet hlen _ hcontract hbuffer =>
    hashCommand_runs (i := .fh64) rfl hquiet hlen (absurd rfl) hcontract hbuffer

/-! ### The scalar tail (42_fasthash64_scalar.md R182, R183) -/

section
variable (c : Params) (bytes : List Byte) (off : Nat) {r : Nat} (a b : W64)

theorem scalarTail_upTo8 (hpos : 0 < r) (hr : r ≤ 8) :
    scalarTail c bytes off r a b = (a + mux (leAt 64 bytes r off) c.p1, b) := by
  have hlast : (r - 1) % 8 + 1 = r := by omega
  simp [scalarTail, hlast, hpos, show ¬8 < r by omega, show ¬16 < r by omega, show ¬24 < r by omega]

theorem scalarTail_upTo16 (hlow : 8 < r) (hr : r ≤ 16) :
    scalarTail c bytes off r a b =
      (a + mux (leAt 64 bytes (r - 8) (off + 8)) c.p1, b + mux (leAt 64 bytes 8 off) c.p2) := by
  have hlast : (r - 1) % 8 + 1 = r - 8 := by omega
  simp [scalarTail, hlast, hlow, show 0 < r by omega, show ¬16 < r by omega, show ¬24 < r by omega]

theorem scalarTail_upTo24 (hlow : 16 < r) (hr : r ≤ 24) :
    scalarTail c bytes off r a b =
      (a + mux (leAt 64 bytes 8 off) c.p3 + mux (leAt 64 bytes (r - 16) (off + 16)) c.p1,
        b + mux (leAt 64 bytes 8 (off + 8)) c.p2) := by
  have hlast : (r - 1) % 8 + 1 = r - 16 := by omega
  simp [scalarTail, hlast, hlow, show 0 < r by omega, show 8 < r by omega, show ¬24 < r by omega]

theorem scalarTail_upTo32 (hlow : 24 < r) (hr : r ≤ 32) :
    scalarTail c bytes off r a b =
      (a + mux (leAt 64 bytes 8 (off + 8)) c.p3 + mux (leAt 64 bytes (r - 24) (off + 24)) c.p1,
        b + mux (leAt 64 bytes 8 off) c.p4 + mux (leAt 64 bytes 8 (off + 16)) c.p2) := by
  have hlast : (r - 1) % 8 + 1 = r - 24 := by omega
  simp [scalarTail, hlast, hlow, show 0 < r by omega, show 8 < r by omega, show 16 < r by omega]

end

/-- Where the cursor stands before the bytes to read, the brackets compute their scalar tail and move it over them
(R182). The flags have no say in it, so a machine whose contract on the bytes is unbroken may stand for any. -/
theorem brackets_of_memRead {s : State} {bytes : List Byte} (h : memRead s s.ptr bytes.length = .value bytes)
    (hr : bytes.length ≤ 32) :
    brackets s bytes.length = .value ((scalarTail s.cfg bytes 0 bytes.length s.a s.b).1,
      (scalarTail s.cfg bytes 0 bytes.length s.a s.b).2, s.ptr + BitVec.ofNat 64 bytes.length) := by
  have hhashing : Hashing s.ptr bytes 0
      { s with status := .running false, rst := false, raced := false, strayed := false } := by
    refine ⟨rfl, rfl, rfl, ?_, by simp⟩
    rw [← h]
    apply memRead_of_sameMemory <;> rfl
  refine Eq.trans ?_ (brackets_eq hhashing hr (by omega))
  apply brackets_congr <;> rfl

/-- The turn in `FH_TAIL` on readable bytes is their scalar tail (R182). -/
theorem fhTail_turn {s : State} {bytes : List Byte} (hbusy : s.status.busy = true) (hrst : s.rst = false)
    (hphase : s.phase = .fhTail) (hrem : s.rem.toNat ≤ 32) (hread : memRead s s.ptr s.rem.toNat = .value bytes) :
    engineTurn s = { s with
      a := (scalarTail s.cfg bytes 0 s.rem.toNat s.a s.b).1, b := (scalarTail s.cfg bytes 0 s.rem.toNat s.a s.b).2
      ptr := s.ptr + s.rem, rem := 0, phase := .fhFin } := by
  have hlength : bytes.length = s.rem.toNat := memRead_length hread
  have hptr : BitVec.ofNat 64 bytes.length = s.rem := by simp [hlength]
  rw [← hlength] at hread hrem
  rw [engineTurn_of_busy hbusy hrst, phaseStep_fhTail hphase, fhTailStep, ← hlength, brackets_of_memRead hread hrem,
    onAnswer_value, hptr]

/-- Settles O23: the turn computes the scalar tail, and R183 says which brackets fire at which length. (`fhTailStep` is
the model's name for the step itself.) -/
theorem fhTailStep_holds : Obligations.FhTailStep := by
  intro s bytes hbusy hrst hphase hrem hread
  rw [fhTail_turn hbusy hrst hphase hrem hread]
  dsimp only
  generalize s.rem.toNat = r at hrem
  obtain hr | ⟨hlow, hr⟩ | ⟨hlow, hr⟩ | ⟨hlow, hr⟩ | hlow :
      r = 0 ∨ (0 < r ∧ r ≤ 8) ∨ (8 < r ∧ r ≤ 16) ∨ (16 < r ∧ r ≤ 24) ∨ 24 < r := by omega
  · simp [hr]
  · simp [scalarTail_upTo8 _ _ _ _ _ hlow hr, hr, hlow.ne']
  · simp [scalarTail_upTo16 _ _ _ _ _ hlow hr, hr, show r ≠ 0 by omega, show ¬r ≤ 8 by omega]
  · simp [scalarTail_upTo24 _ _ _ _ _ hlow hr, hr, show r ≠ 0 by omega, show ¬r ≤ 8 by omega,
      show ¬r ≤ 16 by omega]
  · simp [scalarTail_upTo32 _ _ _ _ _ hlow hrem, show r ≠ 0 by omega, show ¬r ≤ 8 by omega,
      show ¬r ≤ 16 by omega, show ¬r ≤ 24 by omega]

/-! ### The accepting step of `FH64` (42_fasthash64_scalar.md R181) -/

/-- Settles O11: the command has no check on its length, and what it starts from is its init rule's; the rule tests for
more than 32 bytes, where the statement tests for at most 32. -/
theorem fh64IsAccepted : Obligations.Fh64IsAccepted := by
  intro s hidle hcontract
  have hstarts : Starts .fh64 s := ⟨rfl, fun _ => keepsContract_iff.1 hcontract⟩
  have hphase : (if s.len.toNat ≤ 32 then Phase.fhTail else .fhInit) =
      if s.takesBlockPath then .fhInit else .fhTail := by
    simp only [State.takesBlockPath, decide_eq_true_eq, ← Nat.not_le, ite_not]
  rw [exec_of_starts hidle hstarts, hphase]
  rfl

end Sys2Proof.Machine

/-!
# 43_fasthash64_block.md: the block path of `FH64`
-/

namespace Sys2Proof.Machine

/-! ### The field product (43_fasthash64_block.md R213)

`gmulBits` runs over the bits of its second factor. As a function of the first factor it is linear and commutes with
`xtime`, so products by two second factors may change places; with the unit, that makes the product commutative and
associative. -/

/-- The reduction by the polynomial of R213, of the bit that the shift loses. -/
def reduction (carry : Bool) : Byte := if carry then 0x1b else 0

theorem xtime_eq_xor (v : Byte) : xtime v = (v <<< 1) ^^^ reduction (v.getLsbD 7) := by
  unfold xtime reduction
  split <;> simp

theorem reduction_xor (p q : Bool) : reduction (p ^^ q) = reduction p ^^^ reduction q := by
  cases p <;> cases q <;> decide

@[simp] theorem xtime_zero : xtime 0#8 = 0#8 := rfl

theorem xtime_xor (u v : Byte) : xtime (u ^^^ v) = xtime u ^^^ xtime v := by
  simp only [xtime_eq_xor, BitVec.getLsbD_xor, reduction_xor, BitVec.shiftLeft_xor_distrib]
  ac_rfl

@[simp] theorem gmulBits_zero (v w : Byte) : gmulBits 0 v w = 0#8 := rfl

theorem gmulBits_succ (n : Nat) (v w : Byte) :
    gmulBits (n + 1) v w = (if w.getLsbD 0 then v else 0) ^^^ gmulBits n (xtime v) (w >>> 1) := rfl

@[simp] theorem gmulBits_zero_left (n : Nat) (w : Byte) : gmulBits n 0#8 w = 0#8 := by
  induction n generalizing w with
  | zero => rfl
  | succ n ih => simp [gmulBits_succ, ih]

@[simp] theorem gmulBits_zero_right (n : Nat) (v : Byte) : gmulBits n v 0#8 = 0#8 := by
  induction n generalizing v with
  | zero => rfl
  | succ n ih => simp [gmulBits_succ, ih]

/-- The product is linear in its first factor. -/
theorem gmulBits_xor_left (n : Nat) (u v w : Byte) :
    gmulBits n (u ^^^ v) w = gmulBits n u w ^^^ gmulBits n v w := by
  induction n generalizing u v w with
  | zero => simp
  | succ n ih =>
    rw [gmulBits_succ, xtime_xor, ih, gmulBits_succ, gmulBits_succ]
    cases w.getLsbD 0 <;> simp
    ac_rfl

/-- The product commutes with the product by `x` in its first factor. -/
theorem gmulBits_xtime_left (n : Nat) (v w : Byte) : gmulBits n (xtime v) w = xtime (gmulBits n v w) := by
  induction n generalizing v w with
  | zero => simp
  | succ n ih =>
    rw [gmulBits_succ, gmulBits_succ, ih, xtime_xor]
    cases w.getLsbD 0 <;> simp

/-- Products by two second factors may change places: each bit of one is an `xtime` and an exclusive or. -/
theorem gmulBits_right_comm (m n : Nat) (u v w : Byte) :
    gmulBits m (gmulBits n u v) w = gmulBits n (gmulBits m u w) v := by
  induction n generalizing u v with
  | zero => exact gmulBits_zero_left m w
  | succ n ih =>
    rw [gmulBits_succ, gmulBits_xor_left, ih, gmulBits_xtime_left, gmulBits_succ]
    cases v.getLsbD 0 <;> simp

theorem gmul_right_comm (u v w : Byte) : gmul (gmul u v) w = gmul (gmul u w) v := gmulBits_right_comm 8 8 u v w

theorem gmul_comm (v w : Byte) : gmul v w = gmul w v :=
  calc gmul v w = gmul (gmul 1 v) w := by rw [gmul_one_left]
    _ = gmul (gmul 1 w) v := gmul_right_comm 1 v w
    _ = gmul w v := by rw [gmul_one_left]

theorem gmul_assoc (u v w : Byte) : gmul (gmul u v) w = gmul u (gmul v w) :=
  calc gmul (gmul u v) w = gmul (gmul v u) w := by rw [gmul_comm u v]
    _ = gmul (gmul v w) u := gmul_right_comm v u w
    _ = gmul u (gmul v w) := gmul_comm _ u

theorem gmul_zero_right (v : Byte) : gmul v 0 = 0 := gmulBits_zero_right 8 v

theorem gmul_one_right (v : Byte) : gmul v 1 = v := by rw [gmul_comm, gmul_one_left]

theorem gmul_xtime_right (v w : Byte) : gmul v (xtime w) = xtime (gmul v w) := by
  rw [gmul_comm v, gmul_comm v]
  exact gmulBits_xtime_left 8 w v

/-- The byte 2 stands for `x`. -/
theorem gmul_two_right (v : Byte) : gmul v 2 = xtime v :=
  (gmul_xtime_right v 1).trans (congrArg xtime (gmul_one_right v))

theorem gmul_xor_right (u v w : Byte) : gmul u (v ^^^ w) = gmul u v ^^^ gmul u w := by
  rw [gmul_comm u, gmul_comm u, gmul_comm u]
  exact gmulBits_xor_left 8 v w u

/-- A byte has one inverse at most. -/
theorem gmul_inverse_unique {v w w' : Byte} (h : gmul v w = 1) (h' : gmul v w' = 1) : w = w' :=
  calc w = gmul w (gmul v w') := by rw [h', gmul_one_right]
    _ = gmul (gmul v w) w' := by rw [← gmul_assoc, gmul_comm w]
    _ = w' := by rw [h, gmul_one_left]

/-! ### The S-box tables (43_fasthash64_block.md R213, R214) -/

/-- The affine map of R213. -/
def sboxAffine (w : Byte) : Byte :=
  w ^^^ w.rotateLeft 1 ^^^ w.rotateLeft 2 ^^^ w.rotateLeft 3 ^^^ w.rotateLeft 4 ^^^ 0x63

/-- The inverse of the affine map of R213. -/
def sboxAffineInv (u : Byte) : Byte := u.rotateLeft 1 ^^^ u.rotateLeft 3 ^^^ u.rotateLeft 6 ^^^ 0x05

theorem sboxAffine_sboxAffineInv : ∀ u : Byte, sboxAffine (sboxAffineInv u) = u := by decide

/-- The table entry of a byte other than 0, with the affine map undone, is the inverse of the byte. -/
theorem gmul_sboxAffineInv_sbox : ∀ v : Byte, v ≠ 0 → gmul v (sboxAffineInv (sbox v)) = 1 := by decide

theorem sbox_zero : sbox 0 = sboxAffine 0 := rfl

theorem isbox_sbox : ∀ v : Byte, isbox (sbox v) = v := by decide

/-- A left inverse between sets of one size is a right inverse. -/
theorem sbox_isbox : ∀ v : Byte, sbox (isbox v) = v :=
  Function.LeftInverse.rightInverse_of_card_le isbox_sbox le_rfl

theorem sbox_of_inverse {v w : Byte} (h : gmul v w = 1) : sbox v = sboxAffine w := by
  have hv : v ≠ 0 := by
    rintro rfl
    rw [gmul_comm, gmul_zero_right] at h
    exact absurd h (by decide)
  rw [gmul_inverse_unique h (gmul_sboxAffineInv_sbox v hv), sboxAffine_sboxAffineInv]

/-- Settles O40: the laws of the product are those of `gmulBits`, and each table entry, with the affine map undone, is the
inverse of its byte, which is the only one. -/
theorem sboxTablesAreTheAlgebra : Obligations.SboxTablesAreTheAlgebra := by
  refine ⟨fun _ => rfl, fun v => ⟨gmul_zero_right v, gmul_one_right v, gmul_two_right v⟩,
    fun v w => ⟨gmul_xtime_right v w, gmul_comm v w⟩, gmul_xor_right,
    fun v hv => ⟨_, gmul_sboxAffineInv_sbox v hv⟩, ?_, fun v => ⟨isbox_sbox v, sbox_isbox v⟩⟩
  rintro v w (⟨rfl, rfl⟩ | hinverse)
  · exact sbox_zero
  · exact sbox_of_inverse hinverse

/-! ### The steps of the block path (43_fasthash64_block.md R201 to R203) -/

/-- Settles O20: the shift and the mask of the step are the quotient and the remainder by 16. (`fhInitStep` is the model's
name for the step itself.) -/
theorem fhInitStep_holds : Obligations.FhInitStep := by
  intro s hbusy hrst hphase
  have hblocks : s.rem >>> 4 = BitVec.ofNat 64 (s.rem.toNat / 16) := by
    rw [← toNat_shiftRight_four, BitVec.ofNat_toNat, BitVec.setWidth_eq]
  have hrest : s.rem &&& 15 = BitVec.ofNat 64 (s.rem.toNat % 16) := by
    rw [← toNat_and_fifteen, BitVec.ofNat_toNat, BitVec.setWidth_eq]
  rw [engineTurn_of_busy hbusy hrst, phaseStep_fhInit hphase, fhInitStep, hblocks, hrest]

/-- Settles O21: the lowest bit of `NBLK` tells odd from even, and only an odd count reads a block. -/
theorem fhOddStep_holds : Obligations.FhOddStep := by
  intro s hbusy hrst hphase
  rw [engineTurn_of_busy hbusy hrst, phaseStep_fhOdd hphase, fhOddStep]
  refine ⟨fun hodd v hread => ?_, fun heven => ?_⟩
  · rw [if_pos ((getLsbD_zero_iff s.nblk).2 hodd), hread, onAnswer_value]
  · rw [if_neg (by rw [getLsbD_zero_iff]; omega)]

/-- Each block of the readable bytes at an address, as a number (R200). -/
theorem readWord_block {s : State} {a : Addr} {n : Nat} {bytes : List Byte} (h : memRead s a n = .value bytes) (i : Nat)
    (hi : i + 16 ≤ n) : readWord s 128 (a + BitVec.ofNat 64 i) 16 = .value (leAt 128 bytes 16 i) := by
  obtain rfl := memRead_length h
  exact readWord_part h 128 i 16 hi

theorem fhBulkStep_of_memRead {s : State} {bytes : List Byte} (h : memRead s s.ptr 128 = .value bytes) :
    fhBulkStep s = { s with
      x := (bulkAt s.cfg bytes 0 (s.x, s.y, s.salt)).1, y := (bulkAt s.cfg bytes 0 (s.x, s.y, s.salt)).2.1
      salt := (bulkAt s.cfg bytes 0 (s.x, s.y, s.salt)).2.2, ptr := s.ptr + 128, nblk := s.nblk - 8 } := by
  have hfirst : readWord s 128 s.ptr 16 = .value (leAt 128 bytes 16 0) := by
    simpa using readWord_block h 0 (by decide)
  simp only [fhBulkStep, hfirst, BitVec.ofNat_eq_ofNat, readWord_block h, Nat.reduceAdd, Nat.reduceLeDiff,
    Answer.andThen_value, Answer.map_value, onAnswer_value, bulkAt]

theorem fhPairStep_of_memRead {s : State} {bytes : List Byte} (h : memRead s s.ptr 32 = .value bytes) :
    fhPairStep s = { s with
      x := (pairAt s.cfg bytes 0 (s.x, s.y)).1, y := (pairAt s.cfg bytes 0 (s.x, s.y)).2
      ptr := s.ptr + 32, nblk := s.nblk - 2 } := by
  have hfirst : readWord s 128 s.ptr 16 = .value (leAt 128 bytes 16 0) := by
    simpa using readWord_block h 0 (by decide)
  simp only [fhPairStep, hfirst, BitVec.ofNat_eq_ofNat, readWord_block h, Nat.reduceAdd, Nat.reduceLeDiff,
    Answer.andThen_value, Answer.map_value, onAnswer_value, pairAt]

/-- Settles O22: the count of blocks chooses among the three, and the bytes that were read are the blocks in order. -/
theorem fhBlkStep_holds : Obligations.FhBlkStep := by
  intro s hbusy hrst hphase
  rw [engineTurn_of_busy hbusy hrst, phaseStep_fhBlk hphase, fhBlkStep]
  refine ⟨fun hbulk bytes hread => ?_, fun hpair hfew bytes hread => ?_, fun hnone => ?_⟩
  · rw [if_pos hbulk]
    exact fhBulkStep_of_memRead hread
  · rw [if_neg (Nat.not_le.2 hfew), if_pos hpair]
    exact fhPairStep_of_memRead hread
  · have hcount : s.nblk.toNat = 0 := congrArg BitVec.toNat hnone
    rw [hcount, if_neg (by decide), if_neg (by decide), fhCombStep]

/-! ### The block-path functions at their defaults (43_fasthash64_block.md R204 to R208) -/

section
variable {c : Params}

theorem fhInit_of_default (h : c.initChoice = .specDefault) (seed len : W64) :
    fhInit c seed len = (lanes seed len, enc c (lanes seed len) (lanes c.p0 c.p1)) := by
  rw [fhInit, h]

theorem fhOdd_of_default (h : c.oddChoice = .specDefault) (x y v : V128) :
    fhOdd c x y v = (add2 x v, enc c (add2 x v) y) := by
  rw [fhOdd, h]

theorem fhBulk_of_default (h : c.bulkChoice = .specDefault) (x y salt v0 v1 v2 v3 v4 v5 v6 v7 : V128) :
    fhBulk c x y salt v0 v1 v2 v3 v4 v5 v6 v7 =
      (add2 y x, enc c x ([v1, v2, v3, v4, v5, v6, v7].foldl (dec c) (enc c v0 salt)), add2 salt c.saltInc) := by
  rw [fhBulk, h]
  rfl

theorem fhPair_of_default (h : c.pairChoice = .specDefault) (x y v0 v1 : V128) :
    fhPair c x y v0 v1 = (dec c x (add2 y v0), dec c y (sub2 x v1)) := by
  rw [fhPair, h]

theorem fhComb_of_default (h : c.combChoice = .specDefault) (x y : V128) :
    fhComb c x y = (loLane (add2 (dec c x (enc c y x)) y), hiLane (add2 (dec c x (enc c y x)) y)) := by
  rw [fhComb, h]

end

/-- Settles O24: each function takes its default branch; the eight rounds of `FH_BULK` are one encrypt round and then a
decrypt round for each of the seven blocks behind it. -/
theorem defaultBlockFunctions : Obligations.DefaultBlockFunctions :=
  fun _ => ⟨fhInit_of_default, fhOdd_of_default, fhBulk_of_default, fhPair_of_default, fhComb_of_default⟩

end Sys2Proof.Machine

/-!
# 44_finalize_unit.md: the commands `FIN32`, `FIN64` and `FINFH`
-/

namespace Sys2Proof.Machine

/-! ### A finalizer command from its issue to its result (44_finalize_unit.md R251 to R254, 10_state.md R57) -/

/-- A command that reads no buffer has nothing to be checked (R112, R251). -/
theorem starts_of_readsNothing {i : Instr} (hreads : readsBuffer i = false) (s : State) : Starts i s where
  length := by
    cases i with
    | mix32 | mix64a | fh64 => cases hreads
    | fin32 | fin64 | finfh => rfl
  contract h := by
    rw [hreads] at h
    cases h

/-- A command that reads no buffer is always accepted by an idle engine, and no contract on bytes can be broken under it:
a first step that delivers gives `RESULT` the command's value. -/
theorem exec_completes_in_one_turn {i : Instr} {s : State} {v : W64} (hreads : readsBuffer i = false)
    (hidle : s.status.busy = false) (hrst : s.rst = false)
    (hstep : phaseStep (startState i (clearedForIssue s)) = deliver v (startState i (clearedForIssue s))) :
    ∃ t : State, exec i s = .next t ∧ t.status = Status.running s.status.ovr ∧
      engineTurn t = complete v (startState i (clearedForIssue s)) := by
  have hrunning : (startState i (clearedForIssue s)).status = Status.running s.status.ovr := by
    rw [startState_status]
    rfl
  refine ⟨_, exec_of_starts hidle (starts_of_readsNothing hreads s), hrunning,
    engineTurn_of_delivers ?_ ?_ hstep (startState_raced i _) ?_⟩
  · rw [hrunning]
    rfl
  · exact (startState_rst i _).trans hrst
  · rw [startState_strayed, hreads, Bool.false_and]

/-- Settles O12: each command's one phase delivers the finalizer of the operands its init rule latched. -/
theorem finalizeCommandsDeliver : Obligations.FinalizeCommandsDeliver := by
  intro s hidle hrst
  rw [← seed32_eq_setWidth]
  refine ⟨?fin32, ?fin64, ?finfh⟩
  case fin32 => exact exec_completes_in_one_turn (v := (fin32 s.seed32).setWidth 64) rfl hidle hrst rfl
  case fin64 => exact exec_completes_in_one_turn (v := fin64 s.seed) rfl hidle hrst rfl
  case finfh => exact exec_completes_in_one_turn (v := finFh s.cfg s.seed s.len) rfl hidle hrst rfl

end Sys2Proof.Machine

/-!
# 60_exceptions.md: overrun, the errors, and a command that is given no value

Which steps move `OVR`, which command checks its length, what a bus error does to the running command, which steps have
a next state, and what a command that strays from its true buffer delivers.
-/

namespace Sys2Proof.Machine

/-! ### Overrun (60_exceptions.md R274) -/

/-- Only the issue of a word to a busy engine sets `OVR`; no other issue touches it. -/
theorem issueWord_ovr {w : W64} {s t : State} (h : issueWord w s = .next t) :
    t.status.ovr = s.status.ovr ∨ (s.status.busy = true ∧ t.status.ovr = true) := by
  rcases issueWord_cases h with ⟨hbusy, rfl⟩ | ⟨-, c, -, rfl⟩ | ⟨-, i, -, rfl⟩
  · exact .inr ⟨hbusy, rfl⟩
  · exact .inl rfl
  · exact .inl (by rw [startState_status]; rfl)

/-- What each step does to `OVR`: only overrun sets it, and only a `STATUS` write and reset can clear it. -/
theorem StepOutcome.ovr_cases {s t : State} (h : StepOutcome s t) :
    t.status.ovr = s.status.ovr ∨
    (s.status.busy = true ∧ t.status.ovr = true ∧ ∃ w rest, s.inbox = cmdWrite w :: rest) ∨
    (∃ v rest, s.inbox = .write 0x08 8 v :: rest ∧ t.status.ovr = (s.status.ovr && !v.getLsbD 3)) ∨
    (t.rst = true ∧ t.status.ovr = false) := by
  cases h with
  | turn | engine => exact .inl (engineTurn_ovr _)
  | read | poke | unmap | declare | releaseReset => exact .inl rfl
  | assertReset => exact .inr (.inr (.inr ⟨rfl, rfl⟩))
  | @command w rest _ hinbox _ hissue =>
    exact (issueWord_ovr hissue).imp_right fun ⟨hbusy, hset⟩ => .inl ⟨hbusy, hset, w, rest, hinbox⟩
  | @write r v _ rest hinbox _ hr =>
    cases r with
    | status =>
      rw [eq_offsetOf_of_registerAt hr nofun] at hinbox
      exact .inr (.inr (.inl ⟨v, rest, hinbox, rfl⟩))
    | cmd | ctrl | data | len | seed | result | reserved => exact .inl rfl

/-- Settles O6: a busy engine drops every word undecoded, and `StepOutcome.ovr_cases` lists the steps that move `OVR`. -/
theorem overrunDropsTheWord : Obligations.OverrunDropsTheWord := by
  refine ⟨fun s hbusy => ⟨exec_of_busy hbusy, fun w rest hinbox hrst => ?_⟩, fun s t hstep => ?_⟩
  · rw [step_hostWrite hrst (by decide) hinbox]
    exact issueWord_of_busy (s := { s with inbox := rest }) hbusy w
  rcases (step_outcome hstep).ovr_cases with hsame | ⟨hbusy, hset, hinbox⟩ | ⟨v, rest, hinbox, hwrite⟩ |
    ⟨hrst, hclear⟩
  · rw [hsame]
    exact ⟨fun hlow hhigh => absurd (hlow.symm.trans hhigh) Bool.false_ne_true,
      fun hhigh hlow => absurd (hlow.symm.trans hhigh) Bool.false_ne_true⟩
  · exact ⟨fun _ _ => ⟨hbusy, hinbox⟩, fun _ hclear => by simp [hset] at hclear⟩
  · refine ⟨fun hlow hhigh => by simp [hwrite, hlow] at hhigh, fun hhigh hlow => .inl ⟨v, rest, hinbox, ?_⟩⟩
    simpa [hwrite, hhigh] using hlow
  · exact ⟨fun _ hhigh => by simp [hclear] at hhigh, fun _ _ => .inr hrst⟩

/-! ### The length check (60_exceptions.md R272) -/

/-- Error entry from the issue step of an idle engine moves nothing but `STATUS` (R272, R277). -/
theorem raiseError_clearedForIssue {s : State} (hidle : s.phase = .idle) (c : ECode) :
    raiseError c (clearedForIssue s) = { s with status := Status.failed c s.status.ovr } := by
  simp [raiseError, clearedForIssue, hidle, Status.failed]

theorem rejectsLength_of_unchecked {i : Instr} (h32 : i ≠ .mix32) (h64 : i ≠ .mix64a) (s : State) :
    rejectsLength i s = false := by
  cases i with
  | mix32 => exact absurd rfl h32
  | mix64a => exact absurd rfl h64
  | fh64 | fin32 | fin64 | finfh => rfl

/-- Settles O8: the two commands reject the length in their issue step, and the other four, which check none, start. -/
theorem overlongInt32LengthIsReported : Obligations.OverlongInt32LengthIsReported := by
  intro s hbusy
  refine ⟨fun hphase hlen => ?_, fun i t h32 h64 hissue => ?_⟩
  · rw [← raiseError_clearedForIssue hphase]
    exact ⟨exec_of_rejected hbusy (rejectsLength_of_overlong (.inl rfl) hlen),
      exec_of_rejected hbusy (rejectsLength_of_overlong (.inr rfl) hlen)⟩
  · have ht := exec_idle_eq_next hbusy hissue
    rw [rejectsLength_of_unchecked h32 h64, if_neg Bool.false_ne_true] at ht
    rw [ht, startState_status]
    rfl

/-! ### Which bytes an answer rests on (20_memory.md R81, 60_exceptions.md R273) -/

/-- The answer was put together from the bytes at the offsets `I` from `a`: all of them were there if it is a value, and
one of them was answered so if it is a bus error or no answer. -/
def Reads (s : State) (a : Addr) (I : Set Nat) {α : Type} : Answer α → Prop
  | .value _ => ∀ i ∈ I, ∃ b, byteAnswer s (a + BitVec.ofNat 64 i) = .value b
  | .busError => ∃ i ∈ I, byteAnswer s (a + BitVec.ofNat 64 i) = .busError
  | .noAnswer => ∃ i ∈ I, byteAnswer s (a + BitVec.ofNat 64 i) = .noAnswer

section
variable {α β : Type} {s : State} {a : Addr} {I J : Set Nat} {r : Answer α}

theorem reads_nothing {i : Nat} (v : α) : Reads s a (Set.Ico i i) (.value v) :=
  fun _ hj => absurd hj.1 (Nat.not_le.2 hj.2)

/-- Of the bytes an answer rests on, one that is a bus error makes it one, if all of them answer (R81). -/
theorem Reads.eq_busError (h : Reads s a I r) (hall : ∀ i ∈ I, byteAnswer s (a + BitVec.ofNat 64 i) ≠ .noAnswer)
    (hbad : ∃ i ∈ I, byteAnswer s (a + BitVec.ofNat 64 i) = .busError) : r = .busError := by
  cases r with
  | busError => rfl
  | value v =>
    obtain ⟨i, hi, hbus⟩ := hbad
    obtain ⟨b, hb⟩ := h i hi
    rw [hb] at hbus
    cases hbus
  | noAnswer =>
    obtain ⟨i, hi, hno⟩ := h
    exact absurd hno (hall i hi)

/-- A further read adds its own bytes. -/
theorem Reads.andThen {k : α → Answer β} (hr : Reads s a I r) (hk : ∀ v, r = .value v → Reads s a J (k v)) :
    Reads s a (I ∪ J) (r.andThen k) := by
  cases r with
  | busError | noAnswer =>
    obtain ⟨i, hi, h⟩ := hr
    exact ⟨i, .inl hi, h⟩
  | value v =>
    have hkv := hk v rfl
    rw [Answer.andThen_value]
    cases h : k v with
    | value w =>
      rw [h] at hkv
      exact fun i hi => hi.elim (hr i) (hkv i)
    | busError | noAnswer =>
      rw [h] at hkv
      obtain ⟨i, hi, hbyte⟩ := hkv
      exact ⟨i, .inr hi, hbyte⟩

theorem Reads.map (hr : Reads s a I r) (f : α → β) : Reads s a I (r.map f) := by
  cases r with
  | value v | busError | noAnswer => exact hr

/-- A further read of the bytes that follow. -/
theorem Reads.followedBy {i j n : Nat} {k : α → Answer β} (hr : Reads s a (Set.Ico i j) r)
    (hk : ∀ v, r = .value v → Reads s a (Set.Ico j n) (k v)) (hij : i ≤ j) (hjn : j ≤ n) :
    Reads s a (Set.Ico i n) (r.andThen k) := by
  rw [← Set.Ico_union_Ico_eq_Ico hij hjn]
  exact hr.andThen hk

/-- A further read of the bytes that come before. -/
theorem Reads.precededBy {i j n : Nat} {k : α → Answer β} (hr : Reads s a (Set.Ico j n) r)
    (hk : ∀ v, r = .value v → Reads s a (Set.Ico i j) (k v)) (hij : i ≤ j) (hjn : j ≤ n) :
    Reads s a (Set.Ico i n) (r.andThen k) := by
  rw [← Set.Ico_union_Ico_eq_Ico hij hjn, Set.union_comm]
  exact hr.andThen hk

end

theorem byteAnswer_reads (s : State) (a : Addr) (i : Nat) :
    Reads s a (Set.Ico i (i + 1)) (byteAnswer s (a + BitVec.ofNat 64 i)) := by
  cases h : byteAnswer s (a + BitVec.ofNat 64 i) with
  | value b =>
    intro j hj
    obtain rfl : j = i := Nat.le_antisymm (Nat.le_of_lt_succ hj.2) hj.1
    exact ⟨b, h⟩
  | busError | noAnswer => exact ⟨i, ⟨le_rfl, Nat.lt_succ_self i⟩, h⟩

theorem memRead_reads (s : State) (a : Addr) (i n : Nat) :
    Reads s a (Set.Ico i (i + n)) (memRead s (a + BitVec.ofNat 64 i) n) := by
  induction n generalizing i with
  | zero => exact reads_nothing []
  | succ n ih =>
    have hnext : a + BitVec.ofNat 64 i + 1 = a + BitVec.ofNat 64 (i + 1) := by
      rw [BitVec.ofNat_add, BitVec.add_assoc]
      rfl
    have hrest := ih (i + 1)
    rw [Nat.add_right_comm] at hrest
    rw [memRead_succ, hnext]
    exact (byteAnswer_reads s a i).followedBy (fun v _ => hrest.map _) (by omega) (by omega)

theorem readWord_reads (s : State) (w : Nat) (a : Addr) (i n : Nat) :
    Reads s a (Set.Ico i (i + n)) (readWord s w (a + BitVec.ofNat 64 i) n) :=
  (memRead_reads s a i n).map _

theorem readWord_reads_here (s : State) (w : Nat) (a : Addr) (n : Nat) :
    Reads s a (Set.Ico 0 n) (readWord s w a n) := by
  simpa using readWord_reads s w a 0 n

/-! ### The bytes of each phase's read (R142, R143, R162, R163, R182, R202, R203) -/

/-- The folds of a tail read its last byte first. -/
theorem m32Folds_reads (s : State) (j : Nat) (g : W32) : Reads s s.ptr (Set.Ico 0 j) (m32Folds s j g) := by
  induction j generalizing g with
  | zero => exact reads_nothing g
  | succ j ih => exact (readWord_reads s 32 s.ptr j 1).precededBy (fun v _ => ih _) j.zero_le j.le_succ

theorem m64Folds_reads (s : State) (j : Nat) (g : W64) : Reads s s.ptr (Set.Ico 0 j) (m64Folds s j g) := by
  induction j generalizing g with
  | zero => exact reads_nothing g
  | succ j ih => exact (readWord_reads s 64 s.ptr j 1).precededBy (fun v _ => ih _) j.zero_le j.le_succ

/-- A bracket reads the `n` bytes at its address if it fires, and nothing if it does not (R182). -/
theorem bracketIf_reads {s : State} {a ptr : Addr} {i : Nat} (hptr : ptr = a + BitVec.ofNat 64 i) (fires : Bool)
    (p : W64) (n : Nat) (acc : W64) :
    Reads s a (Set.Ico i (i + if fires then n else 0)) (bracketIf fires s p n acc ptr) := by
  subst hptr
  cases fires with
  | true => exact (readWord_reads s 64 a i n).map _
  | false => exact reads_nothing _

theorem bracketIf_next {s : State} {a ptr : Addr} {i : Nat} (hptr : ptr = a + BitVec.ofNat 64 i) {fires : Bool}
    {p : W64} {n : Nat} {acc : W64} {q : W64 × Addr} (h : bracketIf fires s p n acc ptr = .value q) :
    q.2 = a + BitVec.ofNat 64 (i + if fires then n else 0) := by
  rw [bracketIf_ptr h, hptr, BitVec.add_assoc, ← BitVec.ofNat_add]

/-- The brackets that fire read the whole of a tail of at most 32 bytes, one after the other (R182, R184). -/
theorem brackets_reads (s : State) {r : Nat} (hr : r ≤ 32) : Reads s s.ptr (Set.Ico 0 r) (brackets s r) := by
  have hsum : r = 0 + (if decide (24 < r) then 8 else 0) + (if decide (16 < r) then 8 else 0) +
      (if decide (8 < r) then 8 else 0) + if decide (0 < r) then (r - 1) % 8 + 1 else 0 := by
    simp only [decide_eq_true_eq]
    split_ifs <;> omega
  rw [show Set.Ico 0 r = Set.Ico 0 _ from congrArg _ hsum]
  have hptr : s.ptr = s.ptr + BitVec.ofNat 64 0 := by simp
  refine (bracketIf_reads hptr ..).followedBy (fun q4 h4 => ?_) (by omega) (by omega)
  have hptr4 := bracketIf_next hptr h4
  refine (bracketIf_reads hptr4 ..).followedBy (fun q3 h3 => ?_) (by omega) (by omega)
  have hptr3 := bracketIf_next hptr4 h3
  refine (bracketIf_reads hptr3 ..).followedBy (fun q2 h2 => ?_) (by omega) (by omega)
  exact (bracketIf_reads (bracketIf_next hptr3 h2) ..).map _

/-! ### A step on one read (60_exceptions.md R273) -/

/-- What a step of the engine leads to that depends on one read of the `n` bytes from the cursor on. -/
inductive ReadStep (s : State) (n : Nat) : State → Prop where
  | intro {α : Type} {r : Answer α} {k : α → State} (hreads : Reads s s.ptr (Set.Ico 0 n) r) :
      ReadStep s n (onAnswer s r k)

/-- One byte that is a bus error ends the command, if all of them answer (R273). -/
theorem ReadStep.eq_raiseBusError {s t : State} {n : Nat} (h : ReadStep s n t)
    (hall : ∀ i < n, byteAnswer s (s.ptr + BitVec.ofNat 64 i) ≠ .noAnswer)
    (hbad : ∃ i < n, byteAnswer s (s.ptr + BitVec.ofNat 64 i) = .busError) : t = raiseBusError s := by
  obtain ⟨hreads⟩ := h
  obtain ⟨i, hi, hbus⟩ := hbad
  rw [hreads.eq_busError (fun j hj => hall j hj.2) ⟨i, ⟨i.zero_le, hi⟩, hbus⟩, onAnswer_busError]

section
variable {s : State}

theorem m32Body_readStep : ReadStep s (min 4 s.rem.toNat) (m32Body s) := by
  unfold m32Body
  split_ifs with hword
  · rw [Nat.min_eq_left hword]
    exact .intro (readWord_reads_here s 32 s.ptr 4)
  · rw [Nat.min_eq_right (Nat.le_of_not_le hword)]
    exact .intro (m32Folds_reads s s.rem.toNat s.h32)

theorem m64Body_readStep : ReadStep s (min 8 s.rem.toNat) (m64Body s) := by
  unfold m64Body
  split_ifs with hword
  · rw [Nat.min_eq_left hword]
    exact .intro (readWord_reads_here s 64 s.ptr 8)
  · rw [Nat.min_eq_right (Nat.le_of_not_le hword)]
    exact .intro (m64Folds_reads s s.rem.toNat s.h64)

theorem fhOddStep_readStep (hodd : s.nblk.toNat % 2 = 1) : ReadStep s 16 (fhOddStep s) := by
  rw [fhOddStep, if_pos ((getLsbD_zero_iff _).2 hodd)]
  exact .intro (readWord_reads_here s 128 s.ptr 16)

/-- A bulk iteration reads its eight blocks in the order of their addresses (R203). -/
theorem fhBulkStep_readStep : ReadStep s 128 (fhBulkStep s) := by
  have block (i : Nat) := readWord_reads s 128 s.ptr i 16
  refine .intro ?_
  refine (readWord_reads_here s 128 s.ptr 16).followedBy (fun _ _ => ?_) (by decide) (by decide)
  refine (block 16).followedBy (fun _ _ => ?_) (by decide) (by decide)
  refine (block 32).followedBy (fun _ _ => ?_) (by decide) (by decide)
  refine (block 48).followedBy (fun _ _ => ?_) (by decide) (by decide)
  refine (block 64).followedBy (fun _ _ => ?_) (by decide) (by decide)
  refine (block 80).followedBy (fun _ _ => ?_) (by decide) (by decide)
  refine (block 96).followedBy (fun _ _ => ?_) (by decide) (by decide)
  exact (block 112).map _

theorem fhPairStep_readStep : ReadStep s 32 (fhPairStep s) :=
  .intro ((readWord_reads_here s 128 s.ptr 16).followedBy (fun _ _ => (readWord_reads s 128 s.ptr 16 16).map _)
    (by decide) (by decide))

theorem fhTailStep_readStep (hshort : s.rem.toNat ≤ 32) : ReadStep s s.rem.toNat (fhTailStep s) :=
  .intro (brackets_reads s hshort)

/-- By phase: a step that reads at all depends on one read, of the bytes that `stepReads` counts. -/
theorem phaseStep_readStep (htail : s.phase = .fhTail → s.rem.toNat ≤ 32) (hreads : 0 < s.stepReads) :
    ReadStep s s.stepReads (phaseStep s) := by
  revert hreads
  unfold State.stepReads phaseStep
  cases hph : s.phase with
  | idle | m32Fin | m64Fin | fhInit | fhFin | fuOnly32 | fuOnly64 | fuOnlyFh => exact fun h => absurd h (lt_irrefl 0)
  | m32Body => exact fun _ => m32Body_readStep
  | m64Body => exact fun _ => m64Body_readStep
  | fhOdd =>
    dsimp only
    split_ifs with hodd
    · exact fun _ => fhOddStep_readStep hodd
    · exact fun h => absurd h (lt_irrefl 0)
  | fhBlk =>
    dsimp only
    unfold fhBlkStep
    split_ifs with hbulk hpair
    · exact fun _ => fhBulkStep_readStep
    · exact fun _ => fhPairStep_readStep
    · exact fun h => absurd h (lt_irrefl 0)
  | fhTail => exact fun _ => fhTailStep_readStep (htail hph)

end

/-- Settles O27: the step depends on one read of the bytes that `stepReads` counts, and a bus error on one of them makes
it `BusError`, which moves none of these fields but `STATUS` and `PH`. -/
theorem busErrorEndsTheCommand : Obligations.BusErrorEndsTheCommand := by
  intro s hbusy hrst htail hall hbad
  have ⟨i, hi, _⟩ := hbad
  have hstep := (phaseStep_readStep htail (Nat.zero_lt_of_lt hi)).eq_raiseBusError hall hbad
  rw [engineTurn_of_busy hbusy hrst, hstep]
  exact ⟨rfl, rfl, rfl, rfl, rfl, rfl, rfl⟩

/-! ### No lock-up (60_exceptions.md R280) -/

/-- A command whose buffer keeps the caller's contract always has a next state, whatever its length and the flags. -/
theorem exec_goes_on {s : State} (hcontract : s.keepsContract) (i : Instr) : ∃ t, exec i s = .next t := by
  cases hbusy : s.status.busy with
  | true => exact ⟨_, exec_of_busy hbusy i⟩
  | false =>
    cases hlength : rejectsLength i s with
    | true => exact ⟨_, exec_of_rejected hbusy hlength⟩
    | false => exact ⟨_, exec_of_starts hbusy ⟨hlength, fun _ => keepsContract_iff.1 hcontract⟩⟩

theorem issueWord_goes_on {s : State} (hcontract : s.keepsContract) (w : W64) : ∃ t, issueWord w s = .next t := by
  by_cases hlegal : ∃ i, w = encode i
  · obtain ⟨i, hw⟩ := hlegal
    rw [issueWord_of_decode (decode_eq_ok_iff.2 hw)]
    exact exec_goes_on hcontract i
  · cases hbusy : s.status.busy with
    | true => exact ⟨_, issueWord_of_busy hbusy w⟩
    | false => exact ⟨_, issueWord_of_illegal hbusy fun i hw => hlegal ⟨i, hw⟩⟩

/-- Settles O56: every event but a host access is a next state by its definition, and a `CMD` write within the contract
is an overrun, an error or the start of a command. -/
theorem everyOtherStepGoesOn : Obligations.EveryOtherStepGoesOn := by
  refine fun s => ⟨fun hread hwrite => ?_, fun w rest hinbox hrst hcontract => ?_⟩
  · cases hinbox : s.inbox with
    | nil => exact ⟨_, step_of_empty hinbox⟩
    | cons e rest =>
      cases e with
      | read o width => exact absurd hinbox (hread o width rest)
      | write o width v => exact absurd hinbox (hwrite o width v rest)
      | engine | poke | unmap | declare | assertReset | releaseReset => exact ⟨_, step_of_event hinbox⟩
  · rw [step_hostWrite hrst (by decide) hinbox]
    exact issueWord_goes_on (s := { s with inbox := rest }) hcontract w

/-! ### A length beyond the true buffer (60_exceptions.md R275, 93_implementation_defined.md U1) -/

/-- A hash command that starts is recorded as strayed exactly when its bytes are not all bytes of a true buffer. -/
theorem startState_strayed_iff {i : Instr} (hreads : readsBuffer i = true) (s : State) :
    (startState i s).strayed = true ↔ inTrueBuffer s.buffers s.data.toNat s.len.toNat = false := by
  rw [startState_strayed, hreads, Bool.true_and, Bool.not_eq_true']

/-- While the command goes on, the engine draws no free value: only error entry and completion do, and they end it. -/
theorem engineTurn_free (s : State) : (engineTurn s).status.busy = true → (engineTurn s).free = s.free := by
  have hkept := engineTurn_field (fun t => t.status.busy = true → t.free = s.free) s (by simp) (by simp)
    (fun _ _ _ _ _ _ _ _ _ _ _ => rfl)
  exact hkept.mpr fun _ => rfl

/-- The running command, if any, is one whose contract on the bytes was broken, and `RESULT` is to be the free value
number `n`, or is it if the command has completed. -/
structure GivenNoValue (n : Nat) (s : State) : Prop where
  broken : s.resultOpen = true
  running : s.status.busy = true → s.status.done = false ∧ s.free = n
  completed : s.status.done = true → s.result = Config.freeValue 64 n

theorem GivenNoValue.after_turn {n : Nat} {s : State} (h : GivenNoValue n s) : GivenNoValue n (engineTurn s) := by
  have hbroken : (engineTurn s).resultOpen = true := (engineRun_resultOpen 1 s).trans h.broken
  have hfree := engineTurn_free s
  have hturn := engineTurn_outcome s
  generalize engineTurn s = t at hbroken hfree hturn ⊢
  cases hturn with
  | stays => exact h
  | advances hbusy _ _ hvisible =>
    obtain ⟨hdone, hn⟩ := h.running hbusy
    have hdone' : t.status.done = false := hvisible.status ▸ hdone
    exact ⟨hbroken, fun hbusy' => ⟨hdone', (hfree hbusy').trans hn⟩,
      fun hcomplete => absurd (hdone'.symm.trans hcomplete) Bool.false_ne_true⟩
  | fails hbusy =>
    exact ⟨hbroken, nofun, fun hcomplete => absurd ((h.running hbusy).1.symm.trans hcomplete) Bool.false_ne_true⟩
  | delivers hbusy _ v g k =>
    refine ⟨hbroken, by simp, fun _ => ?_⟩
    rw [(deliver_of_resultOpen (s := { s with h32 := g, h64 := k }) h.broken v).1]
    exact congrArg _ (h.running hbusy).2

theorem GivenNoValue.after_run {n : Nat} {s : State} (h : GivenNoValue n s) (k : Nat) :
    GivenNoValue n (engineRun k s) := by
  induction k generalizing s with
  | zero => exact h
  | succ k ih => exact ih h.after_turn

/-- A hash command that strays from the true buffers is given no value from its start on. -/
theorem startState_givenNoValue {i : Instr} (hreads : readsBuffer i = true) {s : State}
    (hstray : inTrueBuffer s.buffers s.data.toNat s.len.toNat = false) :
    GivenNoValue s.free (startState i (clearedForIssue s)) where
  broken := by
    rw [State.resultOpen, (startState_strayed_iff hreads (clearedForIssue s)).2 hstray, Bool.or_true]
  running _ := by
    rw [startState_status, startState_free]
    exact ⟨rfl, rfl⟩
  completed h := by
    rw [startState_status] at h
    cases h

/-- Settles O58: the record at acceptance and at a declaration are those of `startState` and `declareBuffers`, the
finishing phases deliver, and every turn of the engine keeps `GivenNoValue`. -/
theorem lengthBeyondTheBufferFreesTheResult : Obligations.LengthBeyondTheBufferFreesTheResult := by
  refine ⟨fun i s t hreads hidle hissue hbusy => ?_, fun s buffers rest hinbox => ?_,
    fun s hbusy hrst hstrayed hphase => ?_, fun i s t hreads hquiet hissue hstray k u hrun hdone => ?_⟩
  · rcases exec_cases hissue with ⟨hbusy', -⟩ | ⟨-, rfl⟩ | ⟨-, -, rfl⟩
    · exact absurd (hidle.symm.trans hbusy') Bool.false_ne_true
    · cases hbusy
    · exact startState_strayed_iff hreads (clearedForIssue s)
  · exact ⟨_, step_of_event hinbox, by simp⟩
  · exact engineTurn_of_finishing hbusy hrst (by rw [State.resultOpen, hstrayed, Bool.or_true]) hphase
  · obtain ⟨hidle, -, hinbox⟩ := hquiet
    rw [run_of_empty ((exec_idle_inbox hidle hissue).trans hinbox)] at hrun
    cases hrun
    rcases exec_cases hissue with ⟨hbusy, -⟩ | ⟨-, rfl⟩ | ⟨-, -, rfl⟩
    · exact absurd (hidle.symm.trans hbusy) Bool.false_ne_true
    · rw [engineRun_of_idle rfl] at hdone
      cases hdone
    · exact ((startState_givenNoValue hreads hstray).after_run k).completed hdone

end Sys2Proof.Machine

/-!
# 70_reset_and_hazards.md: reset, operand writes while a command runs, and progress

What an asserted reset leads to and holds, why a host may write the operand registers of a running command, why memory
that does not answer stops the engine, and why memory that answers lets every command end.
-/

namespace Sys2Proof.Machine

/-! ### Reset (70_reset_and_hazards.md R310 to R312) -/

theorem guardAccess_of_reset {s : State} (hrst : s.rst = true) (o : BitVec 8) (width : Nat) (run : Outcome) :
    guardAccess s o width run = .refused .accessDuringReset := by
  simp [guardAccess, hrst]

/-- Settles O47: the state an asserted reset leads to is written down by `resetEngine`, whatever the state before; while
it is held, the guard refuses every access and the engine has no turn. -/
theorem resetFromAnyState : Obligations.ResetFromAnyState := by
  refine fun s rest => ⟨fun hinbox => ?_, fun hrst => ⟨fun o width hinbox => ?_, fun o width v hinbox => ?_,
    fun hinbox => ?_, step_of_event⟩⟩
  · have ⟨hstatus, hctrl, _⟩ := resetState
    exact ⟨_, step_of_event hinbox, rfl, hstatus, hctrl, rfl, rfl, rfl, rfl, rfl, rfl, rfl, rfl, rfl, rfl, rfl⟩
  · exact (step_of_event hinbox).trans (guardAccess_of_reset hrst o width _)
  · exact (step_of_event hinbox).trans (guardAccess_of_reset hrst o width _)
  · exact (step_of_event hinbox).trans (congrArg Host.Outcome.next (engineTurn_of_reset hrst))

/-! ### Operand writes while a command runs (70_reset_and_hazards.md R315) -/

/-- What the host may have written or read beside the running command, as the state holds it. -/
def State.hostSide (s : State) : HostSide := ⟨s.ie, s.data, s.len, s.seed, s.rdata⟩

/-- A host's write of `CTRL` or of an operand register; no other register is on this side. -/
def HostSide.write (h : HostSide) (r : Register) (v : W64) : HostSide :=
  match r with
  | .ctrl => { h with ie := v.getLsbD 0 }
  | .data => { h with data := v }
  | .len => { h with len := v }
  | .seed => { h with seed := v }
  | .cmd | .status | .result | .reserved => h

@[simp] theorem engineTurn_hostSide (s : State) : (engineTurn s).hostSide = s.hostSide := by
  simp [State.hostSide]

theorem writeRegister_eq_withHostSide {r : Register} (hr : r ≠ .status) (s : State) (v : W64) :
    writeRegister s r v = s.withHostSide (s.hostSide.write r v) := by
  cases r with
  | status => exact absurd rfl hr
  | cmd | ctrl | data | len | seed | result | reserved => rfl

/-- Settles O53: such a write changes the host's side alone, which the engine neither sees nor changes. -/
theorem operandWritesDoNotDisturb : Obligations.OperandWritesDoNotDisturb := by
  intro s v r hr
  have hstatus : r ≠ .status := by
    rintro rfl
    simp at hr
  rw [writeRegister_eq_withHostSide hstatus, writeRegister_eq_withHostSide hstatus, engineTurn_hostSide,
    engineTurn_withHostSide]

/-! ### A memory that does not answer (93_implementation_defined.md U10) -/

/-- Of the bytes an answer rests on, one that gets no answer leaves the whole without one, if none is a bus error. -/
theorem Reads.eq_noAnswer {α : Type} {s : State} {a : Addr} {I : Set Nat} {r : Answer α} (h : Reads s a I r)
    (hall : ∀ i ∈ I, byteAnswer s (a + BitVec.ofNat 64 i) ≠ .busError)
    (hsilent : ∃ i ∈ I, byteAnswer s (a + BitVec.ofNat 64 i) = .noAnswer) : r = .noAnswer := by
  cases r with
  | noAnswer => rfl
  | value v =>
    obtain ⟨i, hi, hno⟩ := hsilent
    obtain ⟨b, hb⟩ := h i hi
    rw [hb] at hno
    cases hno
  | busError =>
    obtain ⟨i, hi, hbus⟩ := h
    exact absurd hbus (hall i hi)

/-- One byte that gets no answer holds the step back, if none is a bus error. -/
theorem ReadStep.eq_self {s t : State} {n : Nat} (h : ReadStep s n t)
    (hall : ∀ i < n, byteAnswer s (s.ptr + BitVec.ofNat 64 i) ≠ .busError)
    (hsilent : ∃ i < n, byteAnswer s (s.ptr + BitVec.ofNat 64 i) = .noAnswer) : t = s := by
  obtain ⟨hreads⟩ := h
  obtain ⟨i, hi, hno⟩ := hsilent
  rw [hreads.eq_noAnswer (fun j hj => hall j hj.2) ⟨i, ⟨i.zero_le, hi⟩, hno⟩, onAnswer_noAnswer]

/-- Settles O28: an engine that has a step at all takes one that depends on one read of the bytes `stepReads` counts. -/
theorem silentMemoryHoldsTheEngine : Obligations.SilentMemoryHoldsTheEngine := by
  intro s htail hall hsilent
  have ⟨i, hi, _⟩ := hsilent
  have hstep := (phaseStep_readStep htail (Nat.zero_lt_of_lt hi)).eq_self hall hsilent
  rw [engineTurn, hstep, ite_self]

/-! ### A memory that answers every address (70_reset_and_hazards.md R320) -/

/-- Every read is answered, with a byte or with a bus error. -/
def State.memoryAnswers (s : State) : Prop := ∀ a : Addr, byteAnswer s a ≠ .noAnswer

theorem engineTurn_memoryAnswers {s : State} (h : s.memoryAnswers) : (engineTurn s).memoryAnswers := fun a => by
  rw [byteAnswer_congr (engineTurn_mem s) (engineTurn_plat s)]
  exact h a

theorem Answer.andThen_ne_noAnswer {α β : Type} {r : Answer α} {k : α → Answer β} (hr : r ≠ .noAnswer)
    (hk : ∀ v, k v ≠ .noAnswer) : r.andThen k ≠ .noAnswer := by
  cases r with
  | value v => exact hk v
  | busError => exact nofun
  | noAnswer => exact absurd rfl hr

theorem Answer.map_ne_noAnswer {α β : Type} {r : Answer α} (hr : r ≠ .noAnswer) (f : α → β) : r.map f ≠ .noAnswer :=
  Answer.andThen_ne_noAnswer hr fun _ => nofun

theorem Reads.ne_noAnswer {α : Type} {s : State} {a : Addr} {I : Set Nat} {r : Answer α} (h : Reads s a I r)
    (hmem : s.memoryAnswers) : r ≠ .noAnswer := by
  rintro rfl
  obtain ⟨i, -, hi⟩ := h
  exact hmem _ hi

section
variable {s : State} (hmem : s.memoryAnswers)
include hmem

theorem readWord_ne_noAnswer {w : Nat} {a : Addr} {n : Nat} : readWord s w a n ≠ .noAnswer :=
  (readWord_reads_here s w a n).ne_noAnswer hmem

theorem bracketIf_ne_noAnswer {fires : Bool} {p : W64} {n : Nat} {acc : W64} {ptr : Addr} :
    bracketIf fires s p n acc ptr ≠ .noAnswer := by
  cases fires with
  | true => exact Answer.map_ne_noAnswer (readWord_ne_noAnswer hmem) _
  | false => exact nofun

/-- The brackets of a tail of any length, also of one that no command reaches (R184). -/
theorem brackets_ne_noAnswer (r : Nat) : brackets s r ≠ .noAnswer := by
  refine Answer.andThen_ne_noAnswer (bracketIf_ne_noAnswer hmem) fun _ => ?_
  refine Answer.andThen_ne_noAnswer (bracketIf_ne_noAnswer hmem) fun _ => ?_
  refine Answer.andThen_ne_noAnswer (bracketIf_ne_noAnswer hmem) fun _ => ?_
  exact Answer.map_ne_noAnswer (bracketIf_ne_noAnswer hmem) _

end

/-! ### How many steps a command can still take (70_reset_and_hazards.md R319) -/

/-- A bound on the steps the running command still takes: `M32_BODY` and `M64_BODY` count `REM` down, the block path
counts `NBLK` down, which `FH_INIT` takes from `REM`; what is added is the phases to come. -/
def State.stepBound (s : State) : Nat :=
  match s.phase with
  | .idle => 0
  | .m32Fin | .m64Fin | .fhFin | .fuOnly32 | .fuOnly64 | .fuOnlyFh => 1
  | .fhTail => 2
  | .m32Body | .m64Body => s.rem.toNat + 2
  | .fhBlk => s.nblk.toNat + 3
  | .fhOdd => s.nblk.toNat + 4
  | .fhInit => s.rem.toNat + 5

theorem stepBound_le (s : State) : s.stepBound ≤ s.rem.toNat + s.nblk.toNat + 6 := by
  unfold State.stepBound
  split <;> omega

theorem stepBound_of_idle {s : State} (h : s.phase = .idle) : s.stepBound = 0 := by
  rw [State.stepBound, h]

theorem stepBound_pos {s : State} (h : s.phase ≠ .idle) : 0 < s.stepBound := by
  unfold State.stepBound
  split
  case h_1 hidle => exact absurd hidle h
  all_goals omega

/-- A step on a read that is answered comes nearer to the end if its effect does: `BusError` is the end. -/
theorem stepBound_onAnswer_lt {α : Type} {s : State} {r : Answer α} {k : α → State} (hphase : s.phase ≠ .idle)
    (hanswer : r ≠ .noAnswer) (hk : ∀ v, (k v).stepBound < s.stepBound) :
    (onAnswer s r k).stepBound < s.stepBound :=
  onAnswer_induct (P := fun t => t.stepBound < s.stepBound) (fun v _ => hk v)
    (fun _ => stepBound_pos hphase) (fun h => absurd h hanswer)

theorem stepBound_deliver_lt {s : State} (hphase : s.phase ≠ .idle) (v : W64) (t : State) :
    (deliver v t).stepBound < s.stepBound := by
  rw [stepBound_of_idle (deliver_phase v t)]
  exact stepBound_pos hphase

/-- `FH_INIT` leaves a sixteenth of `REM` as the count of blocks (R201). -/
theorem fhInitStep_stepBound_lt {s : State} (hph : s.phase = .fhInit) :
    (fhInitStep s).stepBound < s.stepBound := by
  simp only [State.stepBound, fhInitStep, hph, toNat_shiftRight_four]
  omega

section
variable {s : State} (hmem : s.memoryAnswers)
include hmem

theorem m32Body_stepBound_lt (hph : s.phase = .m32Body) : (m32Body s).stepBound < s.stepBound := by
  have hphase : s.phase ≠ .idle := hph ▸ nofun
  unfold m32Body
  split_ifs with hword
  · refine stepBound_onAnswer_lt hphase (readWord_ne_noAnswer hmem) fun _ => ?_
    simp only [State.stepBound, hph]
    bv_omega
  · refine stepBound_onAnswer_lt hphase ((m32Folds_reads s _ _).ne_noAnswer hmem) fun _ => ?_
    simp only [State.stepBound, hph]
    omega

theorem m64Body_stepBound_lt (hph : s.phase = .m64Body) : (m64Body s).stepBound < s.stepBound := by
  have hphase : s.phase ≠ .idle := hph ▸ nofun
  unfold m64Body
  split_ifs with hword
  · refine stepBound_onAnswer_lt hphase (readWord_ne_noAnswer hmem) fun _ => ?_
    simp only [State.stepBound, hph]
    bv_omega
  · refine stepBound_onAnswer_lt hphase ((m64Folds_reads s _ _).ne_noAnswer hmem) fun _ => ?_
    simp only [State.stepBound, hph]
    omega

/-- The block that is folded alone is there to be counted off, the count being odd (R202). -/
theorem fhOddStep_stepBound_lt (hph : s.phase = .fhOdd) : (fhOddStep s).stepBound < s.stepBound := by
  unfold fhOddStep
  split_ifs with hodd
  · have hcount := (getLsbD_zero_iff _).1 hodd
    refine stepBound_onAnswer_lt (hph ▸ nofun) (readWord_ne_noAnswer hmem) fun _ => ?_
    simp only [State.stepBound, hph]
    bv_omega
  · simp only [State.stepBound, hph]
    omega

theorem fhBlkStep_stepBound_lt (hph : s.phase = .fhBlk) : (fhBlkStep s).stepBound < s.stepBound := by
  have hphase : s.phase ≠ .idle := hph ▸ nofun
  have block {a} := readWord_ne_noAnswer hmem (w := 128) (a := a) (n := 16)
  unfold fhBlkStep
  split_ifs with hbulk hpair
  · refine stepBound_onAnswer_lt hphase ?_ fun _ => ?_
    · iterate 7 refine Answer.andThen_ne_noAnswer block fun _ => ?_
      exact Answer.map_ne_noAnswer block _
    · simp only [State.stepBound, hph]
      bv_omega
  · refine stepBound_onAnswer_lt hphase ?_ fun _ => ?_
    · exact Answer.andThen_ne_noAnswer block fun _ => Answer.map_ne_noAnswer block _
    · simp only [State.stepBound, hph]
      bv_omega
  · simp only [State.stepBound, fhCombStep, hph]
    omega

theorem fhTailStep_stepBound_lt (hph : s.phase = .fhTail) : (fhTailStep s).stepBound < s.stepBound := by
  refine stepBound_onAnswer_lt (hph ▸ nofun) (brackets_ne_noAnswer hmem _) fun _ => ?_
  simp only [State.stepBound, hph]
  omega

/-- By phase: the reading phases and `FH_INIT` have their own lemma, the finishing ones end the command. -/
theorem phaseStep_stepBound_lt (hphase : s.phase ≠ .idle) : (phaseStep s).stepBound < s.stepBound := by
  unfold phaseStep
  cases hph : s.phase with
  | idle => exact absurd hph hphase
  | m32Body => exact m32Body_stepBound_lt hmem hph
  | m64Body => exact m64Body_stepBound_lt hmem hph
  | fhInit => exact fhInitStep_stepBound_lt hph
  | fhOdd => exact fhOddStep_stepBound_lt hmem hph
  | fhBlk => exact fhBlkStep_stepBound_lt hmem hph
  | fhTail => exact fhTailStep_stepBound_lt hmem hph
  | m32Fin | m64Fin | fhFin | fuOnly32 | fuOnly64 | fuOnlyFh => exact stepBound_deliver_lt hphase _ _

end

/-! ### Every running command ends (60_exceptions.md R284, 70_reset_and_hazards.md R320) -/

/-- A command runs, and nothing keeps the engine from its next step. -/
structure Progressing (s : State) : Prop where
  busy : s.status.busy = true
  phase : s.phase ≠ .idle
  rst : s.rst = false
  memory : s.memoryAnswers

/-- The command has ended, with `DONE` or with `ERR`. -/
structure Ended (s : State) : Prop where
  busy : s.status.busy = false
  phase : s.phase = .idle
  flagged : s.status.done = true ∨ s.status.err = true

/-- The engine's turn ends the command or comes nearer to its end. -/
theorem Progressing.after_turn {s : State} (h : Progressing s) :
    Ended (engineTurn s) ∨ (Progressing (engineTurn s) ∧ (engineTurn s).stepBound < s.stepBound) := by
  have hless : (engineTurn s).stepBound < s.stepBound := by
    rw [engineTurn_of_busy h.busy h.rst]
    exact phaseStep_stepBound_lt h.memory h.phase
  have hmem := engineTurn_memoryAnswers h.memory
  have hturn := engineTurn_outcome s
  generalize engineTurn s = t at hless hmem hturn ⊢
  cases hturn with
  | stays => exact absurd hless (lt_irrefl _)
  | advances hbusy hrst hphase hvisible =>
    exact .inr ⟨⟨hvisible.status ▸ hbusy, hphase, hvisible.rst.trans hrst, hmem⟩, hless⟩
  | fails => exact .inl ⟨rfl, rfl, .inr rfl⟩
  | delivers => exact .inl ⟨by simp, by simp, .inl (by simp)⟩

theorem Progressing.ends {s : State} (h : Progressing s) : ∃ k ≤ s.stepBound, Ended (engineRun k s) := by
  induction hbound : s.stepBound using Nat.strong_induction_on generalizing s with
  | _ n ih =>
    subst hbound
    rcases h.after_turn with hended | ⟨hrunning, hless⟩
    · exact ⟨1, stepBound_pos h.phase, hended⟩
    · obtain ⟨k, hk, hended⟩ := ih _ hless hrunning rfl
      exact ⟨k + 1, Nat.lt_of_le_of_lt hk hless, hended⟩

/-- Settles O55: every turn that does not end the command lowers `stepBound`, which is at most `REM + NBLK + 6`. -/
theorem everyRunningCommandEnds : Obligations.EveryRunningCommandEnds := by
  intro s hbusy hphase hrst hinbox hmem
  obtain ⟨k, hk, hended⟩ := Progressing.ends ⟨hbusy, hphase, hrst, hmem⟩
  exact ⟨k, _, hk.trans (stepBound_le s), run_of_empty hinbox k, hended.busy, hended.phase, hended.flagged⟩

end Sys2Proof.Machine
